-- ==== Sys2Proof/Word.lean ====
section
/-!
DEFINITION. The word types of the V850 core (spec/00_scope.md R5, R7; spec/10_state.md R10, R14). Bit 0 is the least
significant bit of every one of them.
-/

namespace Sys2Proof

/-- A word: 32 bits (R7). -/
abbrev Word := BitVec 32

/-- A half-word: 16 bits (R7). -/
abbrev Half := BitVec 16

/-- A byte: 8 bits, the addressable unit (R40). -/
abbrev Byte := BitVec 8

/-- The valid bits of a program counter value: bits 23 to 0 (R14). -/
abbrev PcVal := BitVec 24

/-- A general register number, r0 to r31 (R10). -/
abbrev Reg := Fin 32

end Sys2Proof
end

