-- ==== Sys2Proof/Config.lean ====
section
/-!
DEFINITION. What a product of the family fixes and the architecture leaves open (spec/00_scope.md R6), and the free values:
the values the spec calls undefined after the machine goes on (spec/93_implementation_defined.md U1, U6, U14). A free
value is an opaque constant applied to the state's counter, so that no proof can learn what it is (log 6, 12, 22, 31).
-/

namespace Sys2Proof.Config

/-- A range of addresses: `size` bytes from `base` (R6, R49). -/
structure Range where
  base : Nat
  size : Nat
deriving DecidableEq, Repr

/-- The address map of one product (R6, D11): ROM_RANGE is the `romSize` bytes from 00000000h, RAM_RANGE the `ramSize`
bytes that end at FFFFEFFFh, EXTERNAL_RANGES are listed. PERIPHERAL_RANGE is fixed by the architecture. The map is data
of the state, the same in every state of a run (log 3). -/
structure Product where
  romSize : Nat
  ramSize : Nat
  external : List Range
deriving DecidableEq, Repr

/-- The registers whose value after a reset the spec calls "undefined" (R30). -/
inductive ResetCell where
  | gpr (r : Reg)
  | eipc
  | eipsw
  | fepc
  | fepsw
deriving DecidableEq, Repr

/-- Free value: the quotient that DIVH stores when the divisor is 0 (R132, U1). -/
opaque divhQuotient : Nat → Word

/-- Free value: PSW.S after DIVH by 0 (R132, U1, D4 b). -/
opaque divhSign : Nat → Bool

/-- Free value: PSW.Z after DIVH by 0 (R132, U1, D4 b). -/
opaque divhZero : Nat → Bool

/-- Free value: what a read of the peripheral I/O area at an address returns (R48, U14, D11). A narrower read takes
the low bits. -/
opaque peripheralRead : Nat → Word → Word

/-- Free value: what a register that is undefined after a reset holds after a reset input (R30, U6, D15). -/
opaque resetValue : Nat → ResetCell → Word

end Sys2Proof.Config
end

