-- ==== Sys2Proof/Machine/State.lean ====
section
/-!
DEFINITION. The state of the machine, the reasons a step can stop, and the state after reset. Every piece of state the
spec names is here (INVENTORY.md, "State"); registers hold their valid bits only, the bits "fixed to 0" are no storage
(spec/10_state.md R14, R17 to R22; log 32).
-/

namespace Sys2Proof.Machine

/-- The valid bits of the program status word: 7 NP, 6 EP, 5 ID, 4 SAT, 3 CY, 2 OV, 1 S, 0 Z (R22). -/
abbrev Psw := BitVec 8

/-- The width of a data access (R46). -/
inductive Width where
  | byte | half | word
deriving DecidableEq, Repr

/-- A maskable interrupt request as the INTC presents it: `INT_CODE(i)` and `INT_HANDLER(i)` of the source it has selected
(R215, D10). -/
structure IntRequest where
  code : BitVec 16
  handler : PcVal
deriving DecidableEq, Repr

/-- What the outside world does at one instruction boundary (R215, R250, D7): the reset pin, the NMI request, the maskable
request, and the bytes other bus agents write to external memory. -/
structure Input where
  reset : Bool
  nmiReq : Bool
  intReq : Option IntRequest
  busWrites : List Host.Cell
deriving DecidableEq, Repr

/-- A boundary at which nothing arrives. -/
def Input.quiet : Input := { reset := false, nmiReq := false, intReq := none, busWrites := [] }

/-- What the environment sees the core do (R215 the acknowledgement; D11 peripheral accesses). -/
inductive Event where
  | ioRead (width : Width) (adr : Word)
  | ioWrite (width : Width) (adr : Word) (value : Word)
  | ackNmi
  | ackInt (req : IntRequest)
deriving DecidableEq, Repr

/-- The state of the machine: plain data. -/
structure State where
  /-- r0 to r31 (R10); the cell of r0 is never written and never read (R11). -/
  gpr : Vector Word 32
  /-- The program counter, bits 23 to 0 (R14). -/
  pc : PcVal
  /-- System register 5, bits 7 to 0 (R22). -/
  psw : Psw
  /-- System register 0, bits 23 to 0 (R17). -/
  eipc : PcVal
  /-- System register 1, bits 7 to 0 (R18). -/
  eipsw : Psw
  /-- System register 2, bits 23 to 0 (R19). -/
  fepc : PcVal
  /-- System register 3, bits 7 to 0 (R20). -/
  fepsw : Psw
  /-- System register 4, bits 31 to 16 (R21). -/
  fecc : BitVec 16
  /-- System register 4, bits 15 to 0 (R21). -/
  eicc : BitVec 16
  /-- The HALT mode (R28 a, R240). -/
  halted : Bool
  /-- The inputs of the coming boundaries, the next one first; past its end nothing arrives (R28 b, R215; log 17). -/
  inputs : List Input
  /-- Memory: strictly rising addresses, no entry equal to what an unlisted address reads as (R40; log 2). -/
  mem : List Host.Cell
  /-- The product's address map (R6, R49; log 3). -/
  product : Config.Product
  /-- The model's own counter: the index of the next free value (log 31). -/
  freeCount : Nat
  /-- The model's own record of what the environment sees, newest first (log 34). -/
  events : List Event
deriving DecidableEq, Repr

/-- Why the machine stops with a fault. Each is an access to an address that the product's map says does not exist. All are
SAFE: the model stops where the source gives no behaviour (D11; log 4). -/
inductive Fault where
  /-- Raised by a load, and by the read of SET1, CLR1, NOT1, TST1, of an unmapped byte. Safe. -/
  | unmappedLoad (adr : Word)
  /-- Raised by a store, and by the write of SET1, CLR1, NOT1, to an unmapped byte. Safe. -/
  | unmappedStore (adr : Word)
  /-- Raised by an instruction fetch from an unmapped byte. Safe. -/
  | unmappedFetch (adr : PcVal)
deriving DecidableEq, Repr

/-- Why the model gives a step no meaning. -/
inductive Refusal where
  /-- Raised by exec for an instruction that has no meaning yet. Safe. -/
  | notModelled (mnemonic : String)
  /-- Raised by a step whose code is neither defined nor illegal (R80 a to c, D12, U4). Safe: "normal operation is
  undetermined". -/
  | unrecognisedCode (pc : PcVal)
  /-- Raised by a step whose instruction has a non-zero RFU bit (R80 d, R81, D12, U5). Safe. -/
  | reservedField (pc : PcVal)
  /-- Raised by a step whose 32-bit instruction starts at 00FFFFFEh (R15, D3, U16). Safe. -/
  | fetchStraddlesTop
  /-- Raised by LDSR and STSR with regID 6 to 31 (R16, D13, U2). Safe: "undefined results". -/
  | reservedSystemRegister (regID : BitVec 5)
  /-- Raised by LDSR with regID 4, the read-only ECR (R16, D13, U3). Safe: "undefined results". -/
  | writeProtectedSystemRegister
  /-- Raised by a store, and by the write of SET1, CLR1, NOT1, into ROM_RANGE (D11, U14). Safe. -/
  | storeToRom (adr : Word)
deriving DecidableEq, Repr

/-- What an instruction or a step answers. -/
abbrev Result := Host.Outcome State Fault Refusal

/-- Why a shared operation stops. -/
inductive Stop where
  | fault (f : Fault)
  | refusal (r : Refusal)
deriving DecidableEq, Repr

/-- The address map of the reset state: D11's own binding for programs, all of the space below the peripheral area
ordinary memory (log 3). -/
def State.resetProduct : Config.Product := { romSize := 0, ramSize := 0xFFFFF000, external := [] }

/-- The machine right after reset (R30, R250): pc 00000000h, PSW 00000020h, ECR 00000000h, r0 zero, not halted. The registers
the spec calls undefined hold 0 here (log 1); memory lists nothing (log 2); no input is scheduled (log 17). -/
def State.reset : State where
  gpr := Vector.replicate 32 0#32
  pc := 0x000000#24
  psw := 0x20#8
  eipc := 0#24
  eipsw := 0#8
  fepc := 0#24
  fepsw := 0#8
  fecc := 0x0000#16
  eicc := 0x0000#16
  halted := false
  inputs := []
  mem := []
  product := State.resetProduct
  freeCount := 0
  events := []

end Sys2Proof.Machine
end

