-- ==== Sys2Proof/Syntax.lean ====
section
/-!
DEFINITION. The instructions: one constructor for each row of spec/opcode_table.json, with the operands of
spec/30_encoding.md R84. A displacement operand is the byte displacement of R72 (its implied low zero bits included);
immediates are the encoded bits, extended by the meaning.
-/

namespace Sys2Proof

/-- The sixteen condition codes `cccc` (spec/44_branch.md R171), named as SETF names them (R85). -/
inductive Cond where
  | v | c | z | nh | s | t | lt | le
  | nv | nc | nz | h | ns | sa | ge | gt
deriving DecidableEq, Repr

/-- The instructions, in the order of spec/opcode_table.json. -/
inductive Instr where
  | nop
  | movReg (reg1 reg2 : Reg)
  | notReg (reg1 reg2 : Reg)
  | divh (reg1 reg2 : Reg)
  | satsubr (reg1 reg2 : Reg)
  | satsub (reg1 reg2 : Reg)
  | sataddReg (reg1 reg2 : Reg)
  | mulhReg (reg1 reg2 : Reg)
  | orReg (reg1 reg2 : Reg)
  | xorReg (reg1 reg2 : Reg)
  | andReg (reg1 reg2 : Reg)
  | tst (reg1 reg2 : Reg)
  | subr (reg1 reg2 : Reg)
  | sub (reg1 reg2 : Reg)
  | addReg (reg1 reg2 : Reg)
  | cmpReg (reg1 reg2 : Reg)
  | jmp (reg1 : Reg)
  | movImm (imm5 : BitVec 5) (reg2 : Reg)
  | sataddImm (imm5 : BitVec 5) (reg2 : Reg)
  | addImm (imm5 : BitVec 5) (reg2 : Reg)
  | cmpImm (imm5 : BitVec 5) (reg2 : Reg)
  | shrImm (imm5 : BitVec 5) (reg2 : Reg)
  | sarImm (imm5 : BitVec 5) (reg2 : Reg)
  | shlImm (imm5 : BitVec 5) (reg2 : Reg)
  | mulhImm (imm5 : BitVec 5) (reg2 : Reg)
  | bv (disp9 : BitVec 9)
  | bl (disp9 : BitVec 9)
  | be (disp9 : BitVec 9)
  | bnh (disp9 : BitVec 9)
  | bn (disp9 : BitVec 9)
  | br (disp9 : BitVec 9)
  | blt (disp9 : BitVec 9)
  | ble (disp9 : BitVec 9)
  | bnv (disp9 : BitVec 9)
  | bnl (disp9 : BitVec 9)
  | bne (disp9 : BitVec 9)
  | bh (disp9 : BitVec 9)
  | bp (disp9 : BitVec 9)
  | bsa (disp9 : BitVec 9)
  | bge (disp9 : BitVec 9)
  | bgt (disp9 : BitVec 9)
  | sldB (disp7 : BitVec 7) (reg2 : Reg)
  | sstB (reg2 : Reg) (disp7 : BitVec 7)
  | sldH (disp8 : BitVec 8) (reg2 : Reg)
  | sstH (reg2 : Reg) (disp8 : BitVec 8)
  | sldW (disp8 : BitVec 8) (reg2 : Reg)
  | sstW (reg2 : Reg) (disp8 : BitVec 8)
  | jr (disp22 : BitVec 22)
  | jarl (disp22 : BitVec 22) (reg2 : Reg)
  | addi (imm16 : BitVec 16) (reg1 reg2 : Reg)
  | movea (imm16 : BitVec 16) (reg1 reg2 : Reg)
  | movhi (imm16 : BitVec 16) (reg1 reg2 : Reg)
  | satsubi (imm16 : BitVec 16) (reg1 reg2 : Reg)
  | ori (imm16 : BitVec 16) (reg1 reg2 : Reg)
  | xori (imm16 : BitVec 16) (reg1 reg2 : Reg)
  | andi (imm16 : BitVec 16) (reg1 reg2 : Reg)
  | mulhi (imm16 : BitVec 16) (reg1 reg2 : Reg)
  | ldB (disp16 : BitVec 16) (reg1 reg2 : Reg)
  | ldH (disp16 : BitVec 16) (reg1 reg2 : Reg)
  | ldW (disp16 : BitVec 16) (reg1 reg2 : Reg)
  | stB (reg2 : Reg) (disp16 : BitVec 16) (reg1 : Reg)
  | stH (reg2 : Reg) (disp16 : BitVec 16) (reg1 : Reg)
  | stW (reg2 : Reg) (disp16 : BitVec 16) (reg1 : Reg)
  | set1 (bit3 : BitVec 3) (disp16 : BitVec 16) (reg1 : Reg)
  | not1 (bit3 : BitVec 3) (disp16 : BitVec 16) (reg1 : Reg)
  | clr1 (bit3 : BitVec 3) (disp16 : BitVec 16) (reg1 : Reg)
  | tst1 (bit3 : BitVec 3) (disp16 : BitVec 16) (reg1 : Reg)
  | setf (cccc : Cond) (reg2 : Reg)
  | ldsr (reg2 : Reg) (regID : BitVec 5)
  | stsr (regID : BitVec 5) (reg2 : Reg)
  | shrReg (reg1 reg2 : Reg)
  | sarReg (reg1 reg2 : Reg)
  | shlReg (reg1 reg2 : Reg)
  | trap (vector : BitVec 5)
  | halt
  | reti
  | di
  | ei
  /-- The illegal op code of R79. `subOp` is bits 26 to 23 (0011b to 1111b); the other operands are the bits that
  figure 6-4 marks "don't care", kept so that no bit of the word is lost: bits 15 to 11, 4 to 0, 31 to 27, 22 to 16. -/
  | ilgop (bits15to11 bits4to0 bits31to27 : BitVec 5) (subOp : BitVec 4) (bits22to16 : BitVec 7)
deriving DecidableEq, Repr

end Sys2Proof
end

