-- ==== Sys2Proof/Machine/Flags.lean ====
section
/-!
DEFINITION. The program status word's flags and every flag computation of the spec: the helpers ADD and SUB of
spec/00_scope.md R8, saturation (spec/42_saturated.md R140), the logical flag rule and the shifts (spec/43_logical.md R165,
R166) and the condition codes (spec/44_branch.md R171).
-/

namespace Sys2Proof.Machine

/-! ### Flags of the PSW (R22) -/

/-- Bit `i` of a PSW set to `b`, the other bits kept. -/
def Psw.put (i : Nat) (b : Bool) (p : Psw) : Psw :=
  if b then p ||| BitVec.twoPow 8 i else p &&& ~~~(BitVec.twoPow 8 i)

/-- Z, bit 0. -/
def Psw.z (p : Psw) : Bool := p.getLsbD 0
/-- S, bit 1. -/
def Psw.s (p : Psw) : Bool := p.getLsbD 1
/-- OV, bit 2. -/
def Psw.ov (p : Psw) : Bool := p.getLsbD 2
/-- CY, bit 3. -/
def Psw.cy (p : Psw) : Bool := p.getLsbD 3
/-- SAT, bit 4. -/
def Psw.sat (p : Psw) : Bool := p.getLsbD 4
/-- ID, bit 5. -/
def Psw.id (p : Psw) : Bool := p.getLsbD 5
/-- EP, bit 6. -/
def Psw.ep (p : Psw) : Bool := p.getLsbD 6
/-- NP, bit 7. -/
def Psw.np (p : Psw) : Bool := p.getLsbD 7

/-- Z written. -/
def Psw.setZ (b : Bool) (p : Psw) : Psw := Psw.put 0 b p
/-- S written. -/
def Psw.setS (b : Bool) (p : Psw) : Psw := Psw.put 1 b p
/-- OV written. -/
def Psw.setOv (b : Bool) (p : Psw) : Psw := Psw.put 2 b p
/-- CY written. -/
def Psw.setCy (b : Bool) (p : Psw) : Psw := Psw.put 3 b p
/-- SAT written. -/
def Psw.setSat (b : Bool) (p : Psw) : Psw := Psw.put 4 b p
/-- ID written. -/
def Psw.setId (b : Bool) (p : Psw) : Psw := Psw.put 5 b p
/-- EP written. -/
def Psw.setEp (b : Bool) (p : Psw) : Psw := Psw.put 6 b p
/-- NP written. -/
def Psw.setNp (b : Bool) (p : Psw) : Psw := Psw.put 7 b p

/-- OV, S and Z written: the flags of DIVH (R132). -/
def Psw.setOvSZ (ov s z : Bool) (p : Psw) : Psw := Psw.setZ z (Psw.setS s (Psw.setOv ov p))

/-- CY, OV, S and Z written: the flags of the arithmetic and shift operations (R124, R127, R165). -/
def Psw.setArith (cy ov s z : Bool) (p : Psw) : Psw := Psw.setOvSZ ov s z (Psw.setCy cy p)

/-! ### Arithmetic (R8) -/

/-- A result with the flags an operation computes from it. -/
structure Alu where
  r : Word
  cy : Bool
  ov : Bool
  s : Bool
  z : Bool
deriving DecidableEq, Repr

/-- PSW.S of a result: bit 31. -/
def signFlag (r : Word) : Bool := r.getLsbD 31

/-- PSW.Z of a result: whether it is 0. -/
def zeroFlag (r : Word) : Bool := r == 0#32

/-- A signed integer outside the range of a word: the overflow test of ADD and SUB (R8). -/
def outOfRange (n : Int) : Bool := decide (n < -2 ^ 31) || decide (2 ^ 31 - 1 < n)

/-- The flag helper ADD(a, b) (R8): CY is the carry out of the msb, OV signed overflow. -/
def aluAdd (a b : Word) : Alu :=
  { r := a + b
    cy := decide (2 ^ 32 ≤ a.toNat + b.toNat)
    ov := outOfRange (a.toInt + b.toInt)
    s := signFlag (a + b)
    z := zeroFlag (a + b) }

/-- The flag helper SUB(a, b) (R8): CY is the borrow. -/
def aluSub (a b : Word) : Alu :=
  { r := a - b
    cy := decide (a.toNat < b.toNat)
    ov := outOfRange (a.toInt - b.toInt)
    s := signFlag (a - b)
    z := zeroFlag (a - b) }

/-- The stored result of a saturated operation and its flags (R140): `exact` is the exact signed result. CY and OV are those
of the ordinary operation, S and Z those of the stored value. -/
def aluSaturate (exact : Int) (o : Alu) : Alu :=
  let res := if o.ov then (if 0 < exact then 0x7FFFFFFF#32 else 0x80000000#32) else o.r
  { r := res, cy := o.cy, ov := o.ov, s := signFlag res, z := zeroFlag res }

/-- The saturated addition (R140, R141, R142). -/
def aluSatAdd (a b : Word) : Alu := aluSaturate (a.toInt + b.toInt) (aluAdd a b)

/-- The saturated subtraction (R140, R143 to R145). -/
def aluSatSub (a b : Word) : Alu := aluSaturate (a.toInt - b.toInt) (aluSub a b)

/-! ### Multiplication and division (R129 to R132) -/

/-- A half-word read as a signed integer, from the low half of a word: s16 (R8). -/
def lowHalfInt (w : Word) : Int := (w.extractLsb' 0 16).toInt

/-- The product of two signed half-words as a word (R129, R130, R131). -/
def mulHalf (a b : Int) : Word := BitVec.ofInt 32 (a * b)

/-- DIVH with a non-zero divisor `d` (R132): the quotient truncated toward zero (D4), or 80000000h with OV for
80000000h / -1. CY is not one of its flags. -/
def aluDiv (n d : Int) : Alu :=
  if n = -2 ^ 31 ∧ d = -1 then { r := 0x80000000#32, cy := false, ov := true, s := true, z := false }
  else
    let q : Word := BitVec.ofInt 32 (Int.tdiv n d)
    { r := q, cy := false, ov := false, s := signFlag q, z := zeroFlag q }

/-! ### Shifts (R165) -/

/-- A shift's result with its flags: CY is the last bit shifted out, 0 for a count of 0; OV is 0. -/
def aluShift (n : Nat) (last : Bool) (r : Word) : Alu :=
  { r := r, cy := decide (n ≠ 0) && last, ov := false, s := signFlag r, z := zeroFlag r }

/-- SHL: zeros enter at the lsb side. -/
def aluShl (v : Word) (n : Nat) : Alu := aluShift n (v.getLsbD (32 - n)) (v <<< n)

/-- SHR: zeros enter at the msb side. -/
def aluShr (v : Word) (n : Nat) : Alu := aluShift n (v.getLsbD (n - 1)) (v >>> n)

/-- SAR: the msb is copied into the vacated bits. -/
def aluSar (v : Word) (n : Nat) : Alu := aluShift n (v.getLsbD (n - 1)) (v.sshiftRight n)

/-! ### Conditions (R171) -/

/-- The truth of a condition code on a PSW. -/
def Psw.holds (p : Psw) : Cond → Bool
  | .v => Psw.ov p
  | .c => Psw.cy p
  | .z => Psw.z p
  | .nh => Psw.cy p || Psw.z p
  | .s => Psw.s p
  | .t => true
  | .lt => Psw.s p ^^ Psw.ov p
  | .le => (Psw.s p ^^ Psw.ov p) || Psw.z p
  | .nv => !Psw.ov p
  | .nc => !Psw.cy p
  | .nz => !Psw.z p
  | .h => !(Psw.cy p || Psw.z p)
  | .ns => !Psw.s p
  | .sa => Psw.sat p
  | .ge => !(Psw.s p ^^ Psw.ov p)
  | .gt => !((Psw.s p ^^ Psw.ov p) || Psw.z p)

end Sys2Proof.Machine
end

