-- ==== Sys2Proof/Machine/Ops.lean ====
section
/-!
DEFINITION. The named operations over registers, memory and the exception registers: general registers (spec/10_state.md R10,
R11), the program counter (R14, R15), memory with its alignment mask, byte order and regions (spec/20_memory.md R42, R44,
R49; spec/92_eei_decisions.md D11), system registers (R16 to R23), taking an exception or interrupt and returning from one
(spec/60_exceptions.md R220 to R230).
-/

namespace Sys2Proof.Machine

/-- A stop as the answer of an instruction. -/
def Stop.result : Stop → Result
  | .fault f => .fault f
  | .refusal r => .refused r

/-! ### General registers -/

/-- `x[r]`: r0 reads 0 (R8, R11). -/
def State.reg (s : State) (r : Reg) : Word := if r = 0 then 0#32 else s.gpr[r.val]

/-- `x[r] <- v`: a write to r0 is discarded (R8, R11, D1). -/
def State.setReg (r : Reg) (v : Word) (s : State) : State :=
  { s with gpr := if r = 0 then s.gpr else s.gpr.set r.val v }

/-- The element pointer r30, base of the short loads and stores (R13). -/
def epReg : Reg := 30

/-! ### Program counter -/

/-- `pc <- t[23:1] || 0` (R8, R14). -/
def State.setPc (t : PcVal) (s : State) : State := { s with pc := t &&& 0xFFFFFE#24 }

/-- `pc <- next`, modulo 2^24 (R15). -/
def State.advance (len : Nat) (s : State) : State := s.setPc (s.pc + BitVec.ofNat 24 len)

/-- A program counter value as a word: bits 31 to 24 are 0 (R14). -/
def pcWord (t : PcVal) : Word := t.zeroExtend 32

/-- The low 24 bits of a word (R14, R170). -/
def wordPc (w : Word) : PcVal := w.extractLsb' 0 24

/-! ### Program status word -/

/-- The PSW replaced. -/
def State.setPsw (p : Psw) (s : State) : State := { s with psw := p }

/-- CY, OV, S and Z written from an operation (R124, R127, R165). -/
def State.setArith (o : Alu) (s : State) : State := s.setPsw (Psw.setArith o.cy o.ov o.s o.z s.psw)

/-- SAT set where the operation overflowed, else kept: the saturated instructions (R24, R140, C2). -/
def State.setSatIf (ov : Bool) (s : State) : State := s.setPsw (Psw.setSat (Psw.sat s.psw || ov) s.psw)

/-- The logical flag rule (R166): OV 0, S and Z from the result, CY kept. -/
def State.setLogic (r : Word) (s : State) : State := s.setPsw (Psw.setOvSZ false (signFlag r) (zeroFlag r) s.psw)

/-! ### Memory as a list of cells -/

/-- What an address that the list does not hold reads as (log 2). -/
def Memory.blank : Byte := 0x00#8

/-- The byte at an address. -/
def Memory.read : List Host.Cell → Nat → Byte
  | [], _ => Memory.blank
  | (a, b) :: m, k => if k = a then b else Memory.read m k

/-- A byte written; a cell equal to what an unlisted address reads as is dropped. -/
def Memory.write (k : Nat) (v : Byte) : List Host.Cell → List Host.Cell
  | [] => if v = Memory.blank then [] else [(k, v)]
  | (a, b) :: m =>
    if k < a then (if v = Memory.blank then (a, b) :: m else (k, v) :: (a, b) :: m)
    else if k = a then (if v = Memory.blank then m else (k, v) :: m)
    else (a, b) :: Memory.write k v m

/-- Every address of a list is above `lo`, the addresses rise strictly, and no cell is blank. -/
def Memory.wfFrom (lo : Nat) : List Host.Cell → Bool
  | [] => true
  | (a, b) :: m => decide (lo ≤ a) && decide (a < 2 ^ 32) && decide (b ≠ Memory.blank) && Memory.wfFrom (a + 1) m

/-- The canonical form of memory: addresses of the 2^32 bytes of R40, strictly rising, no blank cell. -/
def Memory.wf (m : List Host.Cell) : Bool := Memory.wfFrom 0 m

/-- A list of bytes written from an address up. -/
def Memory.writeBytes (k : Nat) : List Byte → List Host.Cell → List Host.Cell
  | [], m => m
  | b :: bs, m => Memory.writeBytes (k + 1) bs (Memory.write k b m)

/-! ### Widths and byte order -/

/-- The bytes of an access (R46). -/
def Width.bytes : Width → Nat
  | .byte => 1
  | .half => 2
  | .word => 4

/-- `addr AND NOT (n - 1)`: the alignment mask (R44). -/
def Width.align (w : Width) (adr : Word) : Word :=
  match w with
  | .byte => adr
  | .half => adr &&& 0xFFFFFFFE#32
  | .word => adr &&& 0xFFFFFFFC#32

/-- The low bits of a word that an access of a width moves, zero-extended. -/
def Width.low (w : Width) (v : Word) : Word :=
  match w with
  | .byte => (v.extractLsb' 0 8).zeroExtend 32
  | .half => (v.extractLsb' 0 16).zeroExtend 32
  | .word => v

/-- What a load writes to its register: byte and half-word data sign-extended (R100). -/
def Width.extend (w : Width) (v : Word) : Word :=
  match w with
  | .byte => (v.extractLsb' 0 8).signExtend 32
  | .half => (v.extractLsb' 0 16).signExtend 32
  | .word => v

/-- The bytes an access of a width reads from an address up, little endian, zero-extended (R8, R42). -/
def Memory.readLE (m : List Host.Cell) (a : Nat) : Width → Word
  | .byte => (Memory.read m a).zeroExtend 32
  | .half => (Memory.read m (a + 1) ++ Memory.read m a).zeroExtend 32
  | .word => Memory.read m (a + 3) ++ Memory.read m (a + 2) ++ Memory.read m (a + 1) ++ Memory.read m a

/-- The bytes of a datum of a width, lowest address first (R42). -/
def Width.toBytes (w : Width) (v : Word) : List Byte :=
  match w with
  | .byte => [v.extractLsb' 0 8]
  | .half => [v.extractLsb' 0 8, v.extractLsb' 8 8]
  | .word => [v.extractLsb' 0 8, v.extractLsb' 8 8, v.extractLsb' 16 8, v.extractLsb' 24 8]

/-- A datum of a width written little endian from an address up (R8, R42). -/
def Memory.writeLE (m : List Host.Cell) (a : Nat) (w : Width) (v : Word) : List Host.Cell :=
  Memory.writeBytes a (w.toBytes v) m

/-! ### Regions (R49, D11) -/

/-- The first address of the peripheral I/O area (R49). -/
def peripheralBase : Nat := 0xFFFFF000

/-- An address in the peripheral I/O area FFFFF000h to FFFFFFFFh. -/
def isPeripheral (a : Nat) : Bool := decide (peripheralBase ≤ a)

/-- An address in ROM_RANGE. -/
def inRom (p : Config.Product) (a : Nat) : Bool := decide (a < p.romSize) && !isPeripheral a

/-- An address in RAM_RANGE, which ends at FFFFEFFFh. -/
def inRam (p : Config.Product) (a : Nat) : Bool := decide (peripheralBase ≤ a + p.ramSize) && !isPeripheral a

/-- An address in EXTERNAL_RANGES. -/
def inExternal (p : Config.Product) (a : Nat) : Bool :=
  p.external.any (fun r => decide (r.base ≤ a) && decide (a < r.base + r.size)) && !isPeripheral a

/-- A byte that a load or a fetch reads from memory. -/
def readable (p : Config.Product) (a : Nat) : Bool := inRom p a || inRam p a || inExternal p a

/-- A byte that a store changes: RAM or external, not ROM. -/
def writable (p : Config.Product) (a : Nat) : Bool := readable p a && !inRom p a

/-- A property of each of the `n` bytes from an address up. -/
def allBytes (f : Nat → Bool) (a : Nat) : Nat → Bool
  | 0 => true
  | n + 1 => f a && allBytes f (a + 1) n

/-! ### Data accesses -/

/-- The next free value's index is used up. -/
def State.tick (s : State) : State := { s with freeCount := s.freeCount + 1 }

/-- An event the environment sees. -/
def State.emit (e : Event) (s : State) : State := { s with events := e :: s.events }

/-- Memory replaced. -/
def State.setMem (m : List Host.Cell) (s : State) : State := { s with mem := m }

/-- `MemRead(adr, n)` (R8, R44, R100): the datum, zero-extended, and the state after the read. A read of the peripheral
area returns a free value and is seen by the environment (D11, U14); a read of an unmapped byte faults (log 4). -/
def State.load (w : Width) (adr : Word) (s : State) : Except Stop (Word × State) :=
  let a := w.align adr
  if isPeripheral a.toNat then
    .ok (w.low (Config.peripheralRead s.freeCount a), (s.emit (.ioRead w a)).tick)
  else if allBytes (readable s.product) a.toNat w.bytes then .ok (Memory.readLE s.mem a.toNat w, s)
  else .error (.fault (.unmappedLoad a))

/-- `MemWrite(adr, n, v)` (R8, R44, R100). A write to the peripheral area is seen by the environment (D11); a store into
ROM is refused (D11, log 5); a store to an unmapped byte faults (log 4); neither changes anything. -/
def State.store (w : Width) (adr : Word) (v : Word) (s : State) : Except Stop State :=
  let a := w.align adr
  if isPeripheral a.toNat then .ok (s.emit (.ioWrite w a (w.low v)))
  else if allBytes (writable s.product) a.toNat w.bytes then .ok (s.setMem (Memory.writeLE s.mem a.toNat w v))
  else if allBytes (readable s.product) a.toNat w.bytes then .error (.refusal (.storeToRom a))
  else .error (.fault (.unmappedStore a))

/-! ### System registers (R16) -/

/-- The six system registers. -/
inductive SysReg where
  | eipc | eipsw | fepc | fepsw | ecr | psw
deriving DecidableEq, Repr

/-- The system register of a number; 6 to 31 are reserved (R16). -/
def SysReg.ofId (n : BitVec 5) : Option SysReg :=
  match n.toNat with
  | 0 => some .eipc
  | 1 => some .eipsw
  | 2 => some .fepc
  | 3 => some .fepsw
  | 4 => some .ecr
  | 5 => some .psw
  | _ => none

/-- `SR[n]`: the 32-bit value, the fixed bits 0 (R17 to R22, R192). -/
def State.readSys (s : State) : SysReg → Word
  | .eipc => s.eipc.zeroExtend 32
  | .eipsw => s.eipsw.zeroExtend 32
  | .fepc => s.fepc.zeroExtend 32
  | .fepsw => s.fepsw.zeroExtend 32
  | .ecr => s.fecc ++ s.eicc
  | .psw => s.psw.zeroExtend 32

/-- `SR[n] <- v` with the fixed bits forced to 0 (R17 to R23, R191); ECR takes no write. -/
def State.writeSys (v : Word) (s : State) : SysReg → State
  | .eipc => { s with eipc := v.extractLsb' 0 24 }
  | .eipsw => { s with eipsw := v.extractLsb' 0 8 }
  | .fepc => { s with fepc := v.extractLsb' 0 24 }
  | .fepsw => { s with fepsw := v.extractLsb' 0 8 }
  | .ecr => s
  | .psw => { s with psw := v.extractLsb' 0 8 }

/-! ### Taking an exception or interrupt, and returning (R220 to R230) -/

/-- The pair of saving registers and the half of ECR an entry writes (R210). -/
inductive Bank where
  | ei | fe
deriving DecidableEq, Repr

/-- What an entry depends on (R210, R222 to R225): where it saves, the restore PC, the exception code, whether it is an
exception (EP is set) or an interrupt (EP is cleared), and the handler's address. NMI alone uses the `fe` bank and sets NP. -/
structure Entry where
  bank : Bank
  restore : PcVal
  code : BitVec 16
  exception : Bool
  handler : PcVal
deriving DecidableEq, Repr

/-- Every entry (R220, R222 to R225): save the restore PC and the PSW, write the code to this entry's half of ECR, set ID,
set or clear EP, set NP for the NMI, and go to the handler. Nothing else changes. -/
def State.enter (e : Entry) (s : State) : State :=
  State.setPc e.handler
    { s with
      eipc := if e.bank = .ei then e.restore else s.eipc
      eipsw := if e.bank = .ei then s.psw else s.eipsw
      eicc := if e.bank = .ei then e.code else s.eicc
      fepc := if e.bank = .fe then e.restore else s.fepc
      fepsw := if e.bank = .fe then s.psw else s.fepsw
      fecc := if e.bank = .fe then e.code else s.fecc
      psw := Psw.setNp (Psw.np s.psw || e.bank = .fe) (Psw.setEp e.exception (Psw.setId true s.psw)) }

/-- `ILGOP_CODE`, printed "006nh" (R210, D5, C7). -/
def ilgopCode : BitVec 16 := 0x0060#16

/-- TRAP's entry (R193, R210, R224). -/
def trapEntry (vector : BitVec 5) (s : State) : Entry :=
  { bank := .ei
    restore := s.pc + 4#24
    code := 0x0040#16 + vector.zeroExtend 16
    exception := true
    handler := if vector.toNat < 16 then 0x000040#24 else 0x000050#24 }

/-- The illegal-op-code trap's entry (R210, R225). -/
def ilgopEntry (s : State) : Entry :=
  { bank := .ei, restore := s.pc + 4#24, code := ilgopCode, exception := true, handler := 0x000060#24 }

/-- The non-maskable interrupt's entry (R210, R223). -/
def nmiEntry (s : State) : Entry :=
  { bank := .fe, restore := s.pc, code := 0x0010#16, exception := false, handler := 0x000010#24 }

/-- A maskable interrupt's entry (R210, R222). -/
def intEntry (req : IntRequest) (s : State) : Entry :=
  { bank := .ei, restore := s.pc, code := req.code, exception := false, handler := req.handler }

/-- The pair that a return restores from (R194, R230): FEPC and FEPSW exactly when EP = 0 and NP = 1. -/
def returnBank (p : Psw) : Bank := if !Psw.ep p && Psw.np p then .fe else .ei

/-- The return from every interrupt and exception (R194, R230): the whole PSW and the pc, bit 0 of the saved pc ignored;
the saving registers keep their values. -/
def State.leave (s : State) : State :=
  match returnBank s.psw with
  | .ei => (s.setPsw s.eipsw).setPc s.eipc
  | .fe => (s.setPsw s.fepsw).setPc s.fepc

/-- The HALT mode entered or left (R28 a). -/
def State.setHalted (b : Bool) (s : State) : State := { s with halted := b }

end Sys2Proof.Machine
end

