-- ==== Sys2Proof/Machine/Operands.lean ====
section
/-!
DEFINITION. The operand forms: how each immediate and displacement is extended (spec/30_encoding.md R72), the effective
addresses (spec/20_memory.md R54) and the branch targets (spec/44_branch.md R170).
-/

namespace Sys2Proof.Machine

/-- imm5 sign-extended: MOV, ADD, CMP, SATADD (R72). -/
def sextImm5 (i : BitVec 5) : Word := i.signExtend 32

/-- imm5 as a signed factor: MULH (R72, R130). -/
def factorImm5 (i : BitVec 5) : Int := i.toInt

/-- imm5 as a shift count (R72, R165). -/
def countImm5 (i : BitVec 5) : Nat := i.toNat

/-- The shift count of the register forms: the low 5 bits of reg1 (R165). -/
def countReg (v : Word) : Nat := (v.extractLsb' 0 5).toNat

/-- imm16 sign-extended: ADDI, MOVEA, SATSUBI (R72). -/
def sextImm16 (i : BitVec 16) : Word := i.signExtend 32

/-- imm16 as a signed factor: MULHI (R72, R131, C6). -/
def factorImm16 (i : BitVec 16) : Int := i.toInt

/-- imm16 zero-extended: ORI, ANDI, XORI (R72). -/
def zextImm16 (i : BitVec 16) : Word := i.zeroExtend 32

/-- imm16 as the high half-word: MOVHI (R72). -/
def highImm16 (i : BitVec 16) : Word := i ++ 0x0000#16

/-- Based addressing type 1: `x[reg1] + sext_16(disp16)`, modulo 2^32 (R54, D19). -/
def State.eaBased (s : State) (reg1 : Reg) (disp16 : BitVec 16) : Word := s.reg reg1 + disp16.signExtend 32

/-- Based addressing type 2: `x[30] + zext(disp)`, modulo 2^32 (R54, D19). -/
def State.eaEp (s : State) {n : Nat} (disp : BitVec n) : Word := s.reg epReg + disp.zeroExtend 32

/-- The target of a PC-relative branch: `(pc + sext(disp)) mod 2^24`, from the address of the branch itself (R170). -/
def State.relTarget (s : State) {n : Nat} (disp : BitVec n) : PcVal := s.pc + disp.signExtend 24

end Sys2Proof.Machine
end

