-- ==== Sys2Proof/Machine/Arithmetic.lean ====
section
/-!
DEFINITION. The arithmetic operation instructions (spec/41_arithmetic.md R120 to R137).
-/

namespace Sys2Proof.Machine

/-- A result to reg2 without flags (R120 to R123, R129 to R131, R135). -/
def moveTo (reg2 : Reg) (v : Word) (len : Nat) (s : State) : Result := .next ((s.setReg reg2 v).advance len)

/-- A result to reg2 with CY, OV, S and Z (R124 to R128). -/
def arithTo (reg2 : Reg) (o : Alu) (len : Nat) (s : State) : Result :=
  .next (((s.setReg reg2 o.r).setArith o).advance len)

/-- CY, OV, S and Z of a comparison; no register changes (R133, R134). -/
def compareTo (o : Alu) (len : Nat) (s : State) : Result := .next ((s.setArith o).advance len)

/-- A quotient to reg2 with OV, S and Z; CY is kept (R132). -/
def divTo (reg2 : Reg) (q : Word) (ov sgn zero : Bool) (s : State) : Result :=
  .next (((s.setReg reg2 q).setPsw (Psw.setOvSZ ov sgn zero s.psw)).advance 2)

/-- MOV reg1, reg2 (R120). -/
def execMovReg (reg1 reg2 : Reg) (s : State) : Result := moveTo reg2 (s.reg reg1) 2 s

/-- MOV imm5, reg2 (R121). -/
def execMovImm (imm5 : BitVec 5) (reg2 : Reg) (s : State) : Result := moveTo reg2 (sextImm5 imm5) 2 s

/-- MOVHI imm16, reg1, reg2 (R122). -/
def execMovhi (imm16 : BitVec 16) (reg1 reg2 : Reg) (s : State) : Result :=
  moveTo reg2 (s.reg reg1 + highImm16 imm16) 4 s

/-- MOVEA imm16, reg1, reg2 (R123). -/
def execMovea (imm16 : BitVec 16) (reg1 reg2 : Reg) (s : State) : Result :=
  moveTo reg2 (s.reg reg1 + sextImm16 imm16) 4 s

/-- ADD reg1, reg2 (R124). -/
def execAddReg (reg1 reg2 : Reg) (s : State) : Result := arithTo reg2 (aluAdd (s.reg reg2) (s.reg reg1)) 2 s

/-- ADD imm5, reg2 (R125). -/
def execAddImm (imm5 : BitVec 5) (reg2 : Reg) (s : State) : Result :=
  arithTo reg2 (aluAdd (s.reg reg2) (sextImm5 imm5)) 2 s

/-- ADDI imm16, reg1, reg2 (R126). -/
def execAddi (imm16 : BitVec 16) (reg1 reg2 : Reg) (s : State) : Result :=
  arithTo reg2 (aluAdd (s.reg reg1) (sextImm16 imm16)) 4 s

/-- SUB reg1, reg2: reg2 - reg1 (R127). -/
def execSub (reg1 reg2 : Reg) (s : State) : Result := arithTo reg2 (aluSub (s.reg reg2) (s.reg reg1)) 2 s

/-- SUBR reg1, reg2: reg1 - reg2 (R128). -/
def execSubr (reg1 reg2 : Reg) (s : State) : Result := arithTo reg2 (aluSub (s.reg reg1) (s.reg reg2)) 2 s

/-- MULH reg1, reg2 (R129). -/
def execMulhReg (reg1 reg2 : Reg) (s : State) : Result :=
  moveTo reg2 (mulHalf (lowHalfInt (s.reg reg2)) (lowHalfInt (s.reg reg1))) 2 s

/-- MULH imm5, reg2 (R130, C6). -/
def execMulhImm (imm5 : BitVec 5) (reg2 : Reg) (s : State) : Result :=
  moveTo reg2 (mulHalf (lowHalfInt (s.reg reg2)) (factorImm5 imm5)) 2 s

/-- MULHI imm16, reg1, reg2 (R131, C6). -/
def execMulhi (imm16 : BitVec 16) (reg1 reg2 : Reg) (s : State) : Result :=
  moveTo reg2 (mulHalf (lowHalfInt (s.reg reg1)) (factorImm16 imm16)) 4 s

/-- DIVH reg1, reg2 (R132, D4). A zero divisor sets OV and leaves free values in reg2, S and Z (U1, log 12). -/
def execDivh (reg1 reg2 : Reg) (s : State) : Result :=
  let d := lowHalfInt (s.reg reg1)
  if d = 0 then
    divTo reg2 (Config.divhQuotient s.freeCount) true (Config.divhSign s.freeCount) (Config.divhZero s.freeCount) s.tick
  else
    let o := aluDiv (s.reg reg2).toInt d
    divTo reg2 o.r o.ov o.s o.z s

/-- CMP reg1, reg2: the flags of reg2 - reg1 (R133). -/
def execCmpReg (reg1 reg2 : Reg) (s : State) : Result := compareTo (aluSub (s.reg reg2) (s.reg reg1)) 2 s

/-- CMP imm5, reg2: the flags of reg2 - imm5 (R134). -/
def execCmpImm (imm5 : BitVec 5) (reg2 : Reg) (s : State) : Result :=
  compareTo (aluSub (s.reg reg2) (sextImm5 imm5)) 2 s

/-- SETF cccc, reg2 (R135). -/
def execSetf (cccc : Cond) (reg2 : Reg) (s : State) : Result :=
  moveTo reg2 (if Psw.holds s.psw cccc then 1#32 else 0#32) 4 s

end Sys2Proof.Machine
end

