-- ==== Sys2Proof/Machine/BitManip.lean ====
section
/-!
DEFINITION. The bit manipulation instructions (spec/45_bit_manipulation.md R180 to R185).
-/

namespace Sys2Proof.Machine

/-- A byte with one bit replaced, the others kept (R8, MemWriteBit). -/
def withBit (v : Word) (k : Nat) (b : Bool) : Word :=
  if b then v ||| BitVec.twoPow 32 k else v &&& ~~~(BitVec.twoPow 32 k)

/-- SET1, CLR1, NOT1: one byte read, then one byte written with the addressed bit replaced by `f old`; Z is the complement of
the old bit (R184). -/
def bitModify (f : Bool → Bool) (bit3 : BitVec 3) (disp16 : BitVec 16) (reg1 : Reg) (s : State) : Result :=
  let adr := s.eaBased reg1 disp16
  match s.load .byte adr with
  | .error e => e.result
  | .ok (v, t) =>
    let old := v.getLsbD bit3.toNat
    match t.store .byte adr (withBit v bit3.toNat (f old)) with
    | .error e => e.result
    | .ok u => .next ((u.setPsw (Psw.setZ (!old) u.psw)).advance 4)

/-- SET1 bit#3, disp16 [reg1] (R180). -/
def execSet1 (bit3 : BitVec 3) (disp16 : BitVec 16) (reg1 : Reg) (s : State) : Result :=
  bitModify (fun _ => true) bit3 disp16 reg1 s

/-- CLR1 bit#3, disp16 [reg1] (R181). -/
def execClr1 (bit3 : BitVec 3) (disp16 : BitVec 16) (reg1 : Reg) (s : State) : Result :=
  bitModify (fun _ => false) bit3 disp16 reg1 s

/-- NOT1 bit#3, disp16 [reg1]: the new Z, the complement of the old bit, is written back (R182). -/
def execNot1 (bit3 : BitVec 3) (disp16 : BitVec 16) (reg1 : Reg) (s : State) : Result :=
  bitModify (fun old => !old) bit3 disp16 reg1 s

/-- TST1 bit#3, disp16 [reg1]: one byte read, no write (R183). -/
def execTst1 (bit3 : BitVec 3) (disp16 : BitVec 16) (reg1 : Reg) (s : State) : Result :=
  match s.load .byte (s.eaBased reg1 disp16) with
  | .error e => e.result
  | .ok (v, t) => .next ((t.setPsw (Psw.setZ (!v.getLsbD bit3.toNat) t.psw)).advance 4)

end Sys2Proof.Machine
end

