-- ==== Sys2Proof/Machine/Branch.lean ====
section
/-!
DEFINITION. The branch instructions (spec/44_branch.md R170 to R176). None changes a flag.
-/

namespace Sys2Proof.Machine

/-- JMP [reg1] (R172). -/
def execJmp (reg1 : Reg) (s : State) : Result := .next (s.setPc (wordPc (s.reg reg1)))

/-- JR disp22 (R173). -/
def execJr (disp22 : BitVec 22) (s : State) : Result := .next (s.setPc (s.relTarget disp22))

/-- JARL disp22, reg2: the link is the address after the JARL (R174, D3). -/
def execJarl (disp22 : BitVec 22) (reg2 : Reg) (s : State) : Result :=
  .next ((s.setReg reg2 (pcWord (s.pc + 4#24))).setPc (s.relTarget disp22))

/-- Bcond disp9: to the target when the condition holds, else to the next instruction (R175). -/
def branchIf (cond : Cond) (disp9 : BitVec 9) (s : State) : Result :=
  .next (if Psw.holds s.psw cond then s.setPc (s.relTarget disp9) else s.advance 2)

/-- BV disp9: OV = 1 (R171, R175). -/
def execBv (disp9 : BitVec 9) (s : State) : Result := branchIf .v disp9 s

/-- BL disp9: CY = 1; also BC (R171, R175). -/
def execBl (disp9 : BitVec 9) (s : State) : Result := branchIf .c disp9 s

/-- BE disp9: Z = 1; also BZ (R171, R175). -/
def execBe (disp9 : BitVec 9) (s : State) : Result := branchIf .z disp9 s

/-- BNH disp9: (CY or Z) = 1 (R171, R175). -/
def execBnh (disp9 : BitVec 9) (s : State) : Result := branchIf .nh disp9 s

/-- BN disp9: S = 1 (R171, R175). -/
def execBn (disp9 : BitVec 9) (s : State) : Result := branchIf .s disp9 s

/-- BR disp9: always (R171, R175). -/
def execBr (disp9 : BitVec 9) (s : State) : Result := branchIf .t disp9 s

/-- BLT disp9: (S xor OV) = 1 (R171, R175). -/
def execBlt (disp9 : BitVec 9) (s : State) : Result := branchIf .lt disp9 s

/-- BLE disp9: ((S xor OV) or Z) = 1 (R171, R175). -/
def execBle (disp9 : BitVec 9) (s : State) : Result := branchIf .le disp9 s

/-- BNV disp9: OV = 0 (R171, R175). -/
def execBnv (disp9 : BitVec 9) (s : State) : Result := branchIf .nv disp9 s

/-- BNL disp9: CY = 0; also BNC (R171, R175). -/
def execBnl (disp9 : BitVec 9) (s : State) : Result := branchIf .nc disp9 s

/-- BNE disp9: Z = 0; also BNZ (R171, R175). -/
def execBne (disp9 : BitVec 9) (s : State) : Result := branchIf .nz disp9 s

/-- BH disp9: (CY or Z) = 0 (R171, R175). -/
def execBh (disp9 : BitVec 9) (s : State) : Result := branchIf .h disp9 s

/-- BP disp9: S = 0 (R171, R175). -/
def execBp (disp9 : BitVec 9) (s : State) : Result := branchIf .ns disp9 s

/-- BSA disp9: SAT = 1 (R171, R175). -/
def execBsa (disp9 : BitVec 9) (s : State) : Result := branchIf .sa disp9 s

/-- BGE disp9: (S xor OV) = 0 (R171, R175). -/
def execBge (disp9 : BitVec 9) (s : State) : Result := branchIf .ge disp9 s

/-- BGT disp9: ((S xor OV) or Z) = 0 (R171, R175). -/
def execBgt (disp9 : BitVec 9) (s : State) : Result := branchIf .gt disp9 s

end Sys2Proof.Machine
end

