-- ==== Sys2Proof/Machine/LoadStore.lean ====
section
/-!
DEFINITION. The load and store instructions (spec/40_load_store.md R100 to R113).
-/

namespace Sys2Proof.Machine

/-- A load: the datum, extended, to reg2; the address comes from the state before the load (R100). -/
def loadInto (w : Width) (adr : Word) (reg2 : Reg) (len : Nat) (s : State) : Result :=
  match s.load w adr with
  | .ok (v, t) => .next ((t.setReg reg2 (w.extend v)).advance len)
  | .error e => e.result

/-- A store of the low bits of reg2 (R100). -/
def storeFrom (w : Width) (adr : Word) (reg2 : Reg) (len : Nat) (s : State) : Result :=
  match s.store w adr (s.reg reg2) with
  | .ok t => .next (t.advance len)
  | .error e => e.result

/-- SLD.B disp7 [ep], reg2 (R101). -/
def execSldB (disp7 : BitVec 7) (reg2 : Reg) (s : State) : Result := loadInto .byte (s.eaEp disp7) reg2 2 s

/-- SLD.H disp8 [ep], reg2 (R102). -/
def execSldH (disp8 : BitVec 8) (reg2 : Reg) (s : State) : Result := loadInto .half (s.eaEp disp8) reg2 2 s

/-- SLD.W disp8 [ep], reg2 (R103). -/
def execSldW (disp8 : BitVec 8) (reg2 : Reg) (s : State) : Result := loadInto .word (s.eaEp disp8) reg2 2 s

/-- LD.B disp16 [reg1], reg2 (R104). -/
def execLdB (disp16 : BitVec 16) (reg1 reg2 : Reg) (s : State) : Result :=
  loadInto .byte (s.eaBased reg1 disp16) reg2 4 s

/-- LD.H disp16 [reg1], reg2 (R105). -/
def execLdH (disp16 : BitVec 16) (reg1 reg2 : Reg) (s : State) : Result :=
  loadInto .half (s.eaBased reg1 disp16) reg2 4 s

/-- LD.W disp16 [reg1], reg2 (R106). -/
def execLdW (disp16 : BitVec 16) (reg1 reg2 : Reg) (s : State) : Result :=
  loadInto .word (s.eaBased reg1 disp16) reg2 4 s

/-- SST.B reg2, disp7 [ep] (R107). -/
def execSstB (reg2 : Reg) (disp7 : BitVec 7) (s : State) : Result := storeFrom .byte (s.eaEp disp7) reg2 2 s

/-- SST.H reg2, disp8 [ep] (R108). -/
def execSstH (reg2 : Reg) (disp8 : BitVec 8) (s : State) : Result := storeFrom .half (s.eaEp disp8) reg2 2 s

/-- SST.W reg2, disp8 [ep] (R109). -/
def execSstW (reg2 : Reg) (disp8 : BitVec 8) (s : State) : Result := storeFrom .word (s.eaEp disp8) reg2 2 s

/-- ST.B reg2, disp16 [reg1] (R110). -/
def execStB (reg2 : Reg) (disp16 : BitVec 16) (reg1 : Reg) (s : State) : Result :=
  storeFrom .byte (s.eaBased reg1 disp16) reg2 4 s

/-- ST.H reg2, disp16 [reg1] (R111). -/
def execStH (reg2 : Reg) (disp16 : BitVec 16) (reg1 : Reg) (s : State) : Result :=
  storeFrom .half (s.eaBased reg1 disp16) reg2 4 s

/-- ST.W reg2, disp16 [reg1] (R112). -/
def execStW (reg2 : Reg) (disp16 : BitVec 16) (reg1 : Reg) (s : State) : Result :=
  storeFrom .word (s.eaBased reg1 disp16) reg2 4 s

end Sys2Proof.Machine
end

