-- ==== Sys2Proof/Machine/Logical.lean ====
section
/-!
DEFINITION. The logical operation and shift instructions (spec/43_logical.md R150 to R166).
-/

namespace Sys2Proof.Machine

/-- A logical result to reg2 with OV 0, S and Z (R166). -/
def logicTo (reg2 : Reg) (r : Word) (len : Nat) (s : State) : Result :=
  .next (((s.setReg reg2 r).setLogic r).advance len)

/-- A shifted result to reg2 with CY, OV 0, S and Z (R165). -/
def shiftTo (reg2 : Reg) (o : Alu) (len : Nat) (s : State) : Result :=
  .next (((s.setReg reg2 o.r).setArith o).advance len)

/-- TST reg1, reg2: flags only (R150). -/
def execTst (reg1 reg2 : Reg) (s : State) : Result :=
  .next ((s.setLogic (s.reg reg2 &&& s.reg reg1)).advance 2)

/-- OR reg1, reg2 (R151). -/
def execOrReg (reg1 reg2 : Reg) (s : State) : Result := logicTo reg2 (s.reg reg2 ||| s.reg reg1) 2 s

/-- AND reg1, reg2 (R153). -/
def execAndReg (reg1 reg2 : Reg) (s : State) : Result := logicTo reg2 (s.reg reg2 &&& s.reg reg1) 2 s

/-- XOR reg1, reg2 (R155). -/
def execXorReg (reg1 reg2 : Reg) (s : State) : Result := logicTo reg2 (s.reg reg2 ^^^ s.reg reg1) 2 s

/-- ORI imm16, reg1, reg2 (R152). -/
def execOri (imm16 : BitVec 16) (reg1 reg2 : Reg) (s : State) : Result :=
  logicTo reg2 (s.reg reg1 ||| zextImm16 imm16) 4 s

/-- ANDI imm16, reg1, reg2 (R154). S is 0 because the immediate is zero-extended (C3). -/
def execAndi (imm16 : BitVec 16) (reg1 reg2 : Reg) (s : State) : Result :=
  logicTo reg2 (s.reg reg1 &&& zextImm16 imm16) 4 s

/-- XORI imm16, reg1, reg2 (R156). -/
def execXori (imm16 : BitVec 16) (reg1 reg2 : Reg) (s : State) : Result :=
  logicTo reg2 (s.reg reg1 ^^^ zextImm16 imm16) 4 s

/-- NOT reg1, reg2: the one's complement of reg1; OV is cleared (R157, C1). -/
def execNotReg (reg1 reg2 : Reg) (s : State) : Result := logicTo reg2 (~~~(s.reg reg1)) 2 s

/-- SHL reg1, reg2 (R158). -/
def execShlReg (reg1 reg2 : Reg) (s : State) : Result :=
  shiftTo reg2 (aluShl (s.reg reg2) (countReg (s.reg reg1))) 4 s

/-- SHL imm5, reg2 (R159). -/
def execShlImm (imm5 : BitVec 5) (reg2 : Reg) (s : State) : Result :=
  shiftTo reg2 (aluShl (s.reg reg2) (countImm5 imm5)) 2 s

/-- SHR reg1, reg2 (R160). -/
def execShrReg (reg1 reg2 : Reg) (s : State) : Result :=
  shiftTo reg2 (aluShr (s.reg reg2) (countReg (s.reg reg1))) 4 s

/-- SHR imm5, reg2 (R161). -/
def execShrImm (imm5 : BitVec 5) (reg2 : Reg) (s : State) : Result :=
  shiftTo reg2 (aluShr (s.reg reg2) (countImm5 imm5)) 2 s

/-- SAR reg1, reg2 (R162). -/
def execSarReg (reg1 reg2 : Reg) (s : State) : Result :=
  shiftTo reg2 (aluSar (s.reg reg2) (countReg (s.reg reg1))) 4 s

/-- SAR imm5, reg2 (R163). -/
def execSarImm (imm5 : BitVec 5) (reg2 : Reg) (s : State) : Result :=
  shiftTo reg2 (aluSar (s.reg reg2) (countImm5 imm5)) 2 s

end Sys2Proof.Machine
end

