-- ==== Sys2Proof/Machine/Saturated.lean ====
section
/-!
DEFINITION. The saturated operation instructions (spec/42_saturated.md R140 to R146).
-/

namespace Sys2Proof.Machine

/-- A saturated result to reg2 with CY, OV, S, Z, and SAT set on overflow (R140). -/
def satTo (reg2 : Reg) (o : Alu) (len : Nat) (s : State) : Result :=
  .next ((((s.setReg reg2 o.r).setArith o).setSatIf o.ov).advance len)

/-- SATADD reg1, reg2 (R141). -/
def execSataddReg (reg1 reg2 : Reg) (s : State) : Result := satTo reg2 (aluSatAdd (s.reg reg2) (s.reg reg1)) 2 s

/-- SATADD imm5, reg2 (R142). -/
def execSataddImm (imm5 : BitVec 5) (reg2 : Reg) (s : State) : Result :=
  satTo reg2 (aluSatAdd (s.reg reg2) (sextImm5 imm5)) 2 s

/-- SATSUB reg1, reg2: reg2 - reg1 (R143). -/
def execSatsub (reg1 reg2 : Reg) (s : State) : Result := satTo reg2 (aluSatSub (s.reg reg2) (s.reg reg1)) 2 s

/-- SATSUBI imm16, reg1, reg2: reg1 - imm16 (R144). -/
def execSatsubi (imm16 : BitVec 16) (reg1 reg2 : Reg) (s : State) : Result :=
  satTo reg2 (aluSatSub (s.reg reg1) (sextImm16 imm16)) 4 s

/-- SATSUBR reg1, reg2: reg1 - reg2 (R145). -/
def execSatsubr (reg1 reg2 : Reg) (s : State) : Result := satTo reg2 (aluSatSub (s.reg reg1) (s.reg reg2)) 2 s

end Sys2Proof.Machine
end

