-- ==== Sys2Proof/Machine/Special.lean ====
section
/-!
DEFINITION. The special instructions (spec/46_special.md R190 to R199) and the illegal op code (spec/60_exceptions.md R225).
-/

namespace Sys2Proof.Machine

/-- LDSR reg2, regID (R191). A reserved number and the read-only ECR are refused (R16, D13, log 20). -/
def execLdsr (reg2 : Reg) (regID : BitVec 5) (s : State) : Result :=
  match SysReg.ofId regID with
  | none => .refused (.reservedSystemRegister regID)
  | some .ecr => .refused .writeProtectedSystemRegister
  | some r => .next ((State.writeSys (s.reg reg2) s r).advance 4)

/-- STSR regID, reg2 (R192). A reserved number is refused (R16, D13, log 20). -/
def execStsr (regID : BitVec 5) (reg2 : Reg) (s : State) : Result :=
  match SysReg.ofId regID with
  | none => .refused (.reservedSystemRegister regID)
  | some r => .next ((s.setReg reg2 (s.readSys r)).advance 4)

/-- TRAP vector (R193, R224): always taken. -/
def execTrap (vector : BitVec 5) (s : State) : Result := .next (s.enter (trapEntry vector s))

/-- RETI (R194, R230). -/
def execReti (s : State) : Result := .next s.leave

/-- HALT (R195): the pc moves past it, the core waits. -/
def execHalt (s : State) : Result := .next ((s.setHalted true).advance 4)

/-- DI (R196). -/
def execDi (s : State) : Result := .next ((s.setPsw (Psw.setId true s.psw)).advance 4)

/-- EI (R197). -/
def execEi (s : State) : Result := .next ((s.setPsw (Psw.setId false s.psw)).advance 4)

/-- NOP (R198). -/
def execNop (s : State) : Result := .next (s.advance 2)

/-- An illegal op code: the exception trap, whatever its other bits are (R79, R225). -/
def execIlgop (s : State) : Result := .next (s.enter (ilgopEntry s))

end Sys2Proof.Machine
end

