-- ==== Sys2Proof/Machine/Dispatch.lean ====
section
/-!
DEFINITION. The meaning of each instruction, one arm a constructor, in the order of spec/opcode_table.json.
-/

namespace Sys2Proof.Machine

def exec (i : Instr) (s : State) : Host.Outcome State Fault Refusal :=
  match i with
  | .nop => Sys2Proof.Machine.execNop s
  | .movReg reg1 reg2 => Sys2Proof.Machine.execMovReg reg1 reg2 s
  | .notReg reg1 reg2 => Sys2Proof.Machine.execNotReg reg1 reg2 s
  | .divh reg1 reg2 => Sys2Proof.Machine.execDivh reg1 reg2 s
  | .satsubr reg1 reg2 => Sys2Proof.Machine.execSatsubr reg1 reg2 s
  | .satsub reg1 reg2 => Sys2Proof.Machine.execSatsub reg1 reg2 s
  | .sataddReg reg1 reg2 => Sys2Proof.Machine.execSataddReg reg1 reg2 s
  | .mulhReg reg1 reg2 => Sys2Proof.Machine.execMulhReg reg1 reg2 s
  | .orReg reg1 reg2 => Sys2Proof.Machine.execOrReg reg1 reg2 s
  | .xorReg reg1 reg2 => Sys2Proof.Machine.execXorReg reg1 reg2 s
  | .andReg reg1 reg2 => Sys2Proof.Machine.execAndReg reg1 reg2 s
  | .tst reg1 reg2 => Sys2Proof.Machine.execTst reg1 reg2 s
  | .subr reg1 reg2 => Sys2Proof.Machine.execSubr reg1 reg2 s
  | .sub reg1 reg2 => Sys2Proof.Machine.execSub reg1 reg2 s
  | .addReg reg1 reg2 => Sys2Proof.Machine.execAddReg reg1 reg2 s
  | .cmpReg reg1 reg2 => Sys2Proof.Machine.execCmpReg reg1 reg2 s
  | .jmp reg1 => Sys2Proof.Machine.execJmp reg1 s
  | .movImm imm5 reg2 => Sys2Proof.Machine.execMovImm imm5 reg2 s
  | .sataddImm imm5 reg2 => Sys2Proof.Machine.execSataddImm imm5 reg2 s
  | .addImm imm5 reg2 => Sys2Proof.Machine.execAddImm imm5 reg2 s
  | .cmpImm imm5 reg2 => Sys2Proof.Machine.execCmpImm imm5 reg2 s
  | .shrImm imm5 reg2 => Sys2Proof.Machine.execShrImm imm5 reg2 s
  | .sarImm imm5 reg2 => Sys2Proof.Machine.execSarImm imm5 reg2 s
  | .shlImm imm5 reg2 => Sys2Proof.Machine.execShlImm imm5 reg2 s
  | .mulhImm imm5 reg2 => Sys2Proof.Machine.execMulhImm imm5 reg2 s
  | .bv disp9 => Sys2Proof.Machine.execBv disp9 s
  | .bl disp9 => Sys2Proof.Machine.execBl disp9 s
  | .be disp9 => Sys2Proof.Machine.execBe disp9 s
  | .bnh disp9 => Sys2Proof.Machine.execBnh disp9 s
  | .bn disp9 => Sys2Proof.Machine.execBn disp9 s
  | .br disp9 => Sys2Proof.Machine.execBr disp9 s
  | .blt disp9 => Sys2Proof.Machine.execBlt disp9 s
  | .ble disp9 => Sys2Proof.Machine.execBle disp9 s
  | .bnv disp9 => Sys2Proof.Machine.execBnv disp9 s
  | .bnl disp9 => Sys2Proof.Machine.execBnl disp9 s
  | .bne disp9 => Sys2Proof.Machine.execBne disp9 s
  | .bh disp9 => Sys2Proof.Machine.execBh disp9 s
  | .bp disp9 => Sys2Proof.Machine.execBp disp9 s
  | .bsa disp9 => Sys2Proof.Machine.execBsa disp9 s
  | .bge disp9 => Sys2Proof.Machine.execBge disp9 s
  | .bgt disp9 => Sys2Proof.Machine.execBgt disp9 s
  | .sldB disp7 reg2 => Sys2Proof.Machine.execSldB disp7 reg2 s
  | .sstB reg2 disp7 => Sys2Proof.Machine.execSstB reg2 disp7 s
  | .sldH disp8 reg2 => Sys2Proof.Machine.execSldH disp8 reg2 s
  | .sstH reg2 disp8 => Sys2Proof.Machine.execSstH reg2 disp8 s
  | .sldW disp8 reg2 => Sys2Proof.Machine.execSldW disp8 reg2 s
  | .sstW reg2 disp8 => Sys2Proof.Machine.execSstW reg2 disp8 s
  | .jr disp22 => Sys2Proof.Machine.execJr disp22 s
  | .jarl disp22 reg2 => Sys2Proof.Machine.execJarl disp22 reg2 s
  | .addi imm16 reg1 reg2 => Sys2Proof.Machine.execAddi imm16 reg1 reg2 s
  | .movea imm16 reg1 reg2 => Sys2Proof.Machine.execMovea imm16 reg1 reg2 s
  | .movhi imm16 reg1 reg2 => Sys2Proof.Machine.execMovhi imm16 reg1 reg2 s
  | .satsubi imm16 reg1 reg2 => Sys2Proof.Machine.execSatsubi imm16 reg1 reg2 s
  | .ori imm16 reg1 reg2 => Sys2Proof.Machine.execOri imm16 reg1 reg2 s
  | .xori imm16 reg1 reg2 => Sys2Proof.Machine.execXori imm16 reg1 reg2 s
  | .andi imm16 reg1 reg2 => Sys2Proof.Machine.execAndi imm16 reg1 reg2 s
  | .mulhi imm16 reg1 reg2 => Sys2Proof.Machine.execMulhi imm16 reg1 reg2 s
  | .ldB disp16 reg1 reg2 => Sys2Proof.Machine.execLdB disp16 reg1 reg2 s
  | .ldH disp16 reg1 reg2 => Sys2Proof.Machine.execLdH disp16 reg1 reg2 s
  | .ldW disp16 reg1 reg2 => Sys2Proof.Machine.execLdW disp16 reg1 reg2 s
  | .stB reg2 disp16 reg1 => Sys2Proof.Machine.execStB reg2 disp16 reg1 s
  | .stH reg2 disp16 reg1 => Sys2Proof.Machine.execStH reg2 disp16 reg1 s
  | .stW reg2 disp16 reg1 => Sys2Proof.Machine.execStW reg2 disp16 reg1 s
  | .set1 bit3 disp16 reg1 => Sys2Proof.Machine.execSet1 bit3 disp16 reg1 s
  | .not1 bit3 disp16 reg1 => Sys2Proof.Machine.execNot1 bit3 disp16 reg1 s
  | .clr1 bit3 disp16 reg1 => Sys2Proof.Machine.execClr1 bit3 disp16 reg1 s
  | .tst1 bit3 disp16 reg1 => Sys2Proof.Machine.execTst1 bit3 disp16 reg1 s
  | .setf cccc reg2 => Sys2Proof.Machine.execSetf cccc reg2 s
  | .ldsr reg2 regID => Sys2Proof.Machine.execLdsr reg2 regID s
  | .stsr regID reg2 => Sys2Proof.Machine.execStsr regID reg2 s
  | .shrReg reg1 reg2 => Sys2Proof.Machine.execShrReg reg1 reg2 s
  | .sarReg reg1 reg2 => Sys2Proof.Machine.execSarReg reg1 reg2 s
  | .shlReg reg1 reg2 => Sys2Proof.Machine.execShlReg reg1 reg2 s
  | .trap vector => Sys2Proof.Machine.execTrap vector s
  | .halt => Sys2Proof.Machine.execHalt s
  | .reti => Sys2Proof.Machine.execReti s
  | .di => Sys2Proof.Machine.execDi s
  | .ei => Sys2Proof.Machine.execEi s
  | .ilgop _ _ _ _ _ => Sys2Proof.Machine.execIlgop s

end Sys2Proof.Machine
end

