-- ==== Sys2Proof/WellFormed.lean ====
section
/-!
DEFINITION. Which terms of `Instr` an encoding exists for (spec/30_encoding.md R64 to R68, R72, R78, R79): a displacement
has the zero low bits that its encoding drops, JARL with r0 is JR, MOV r0, r0 is NOP, and an illegal op code has a sub-op
code of 0011b or more.
-/

namespace Sys2Proof

/-- The lowest bit of a displacement is 0 (R72: disp9, disp22, half-word disp8, disp16 of the half-word and word forms). -/
def evenDisp {n : Nat} (d : BitVec n) : Bool := !d.getLsbD 0

/-- The two lowest bits of a displacement are 0 (R72: the word form of disp8). -/
def wordDisp {n : Nat} (d : BitVec n) : Bool := !d.getLsbD 0 && !d.getLsbD 1

/-- An instruction that has an encoding. -/
def Instr.wf : Instr → Bool
  | .movReg reg1 reg2 => !(reg1 == 0 && reg2 == 0)
  | .bv d | .bl d | .be d | .bnh d | .bn d | .br d | .blt d | .ble d
  | .bnv d | .bnl d | .bne d | .bh d | .bp d | .bsa d | .bge d | .bgt d => evenDisp d
  | .sldH d _ | .sstH _ d => evenDisp d
  | .sldW d _ | .sstW _ d => wordDisp d
  | .jr d => evenDisp d
  | .jarl d reg2 => evenDisp d && reg2 != 0
  | .ldH d _ _ | .ldW d _ _ | .stH _ d _ | .stW _ d _ => evenDisp d
  | .ilgop _ _ _ subOp _ => decide (3 ≤ subOp.toNat)
  | .nop | .notReg _ _ | .divh _ _ | .satsubr _ _ | .satsub _ _ | .sataddReg _ _ | .mulhReg _ _ | .orReg _ _
  | .xorReg _ _ | .andReg _ _ | .tst _ _ | .subr _ _ | .sub _ _ | .addReg _ _ | .cmpReg _ _ | .jmp _
  | .movImm _ _ | .sataddImm _ _ | .addImm _ _ | .cmpImm _ _ | .shrImm _ _ | .sarImm _ _ | .shlImm _ _
  | .mulhImm _ _ | .sldB _ _ | .sstB _ _ | .addi _ _ _ | .movea _ _ _ | .movhi _ _ _ | .satsubi _ _ _
  | .ori _ _ _ | .xori _ _ _ | .andi _ _ _ | .mulhi _ _ _ | .ldB _ _ _ | .stB _ _ _ | .set1 _ _ _ | .not1 _ _ _
  | .clr1 _ _ _ | .tst1 _ _ _ | .setf _ _ | .ldsr _ _ | .stsr _ _ | .shrReg _ _ | .sarReg _ _ | .shlReg _ _
  | .trap _ | .halt | .reti | .di | .ei => true

/-- The length of an instruction in bytes (R61, R270): formats I to IV have 2, formats V to X and the illegal op
code 4. -/
def Instr.length : Instr → Nat
  | .nop | .movReg _ _ | .notReg _ _ | .divh _ _ | .satsubr _ _ | .satsub _ _ | .sataddReg _ _ | .mulhReg _ _
  | .orReg _ _ | .xorReg _ _ | .andReg _ _ | .tst _ _ | .subr _ _ | .sub _ _ | .addReg _ _ | .cmpReg _ _ | .jmp _
  | .movImm _ _ | .sataddImm _ _ | .addImm _ _ | .cmpImm _ _ | .shrImm _ _ | .sarImm _ _ | .shlImm _ _
  | .mulhImm _ _
  | .bv _ | .bl _ | .be _ | .bnh _ | .bn _ | .br _ | .blt _ | .ble _
  | .bnv _ | .bnl _ | .bne _ | .bh _ | .bp _ | .bsa _ | .bge _ | .bgt _
  | .sldB _ _ | .sstB _ _ | .sldH _ _ | .sstH _ _ | .sldW _ _ | .sstW _ _ => 2
  | .jr _ | .jarl _ _ | .addi _ _ _ | .movea _ _ _ | .movhi _ _ _ | .satsubi _ _ _ | .ori _ _ _ | .xori _ _ _
  | .andi _ _ _ | .mulhi _ _ _ | .ldB _ _ _ | .ldH _ _ _ | .ldW _ _ _ | .stB _ _ _ | .stH _ _ _ | .stW _ _ _
  | .set1 _ _ _ | .not1 _ _ _ | .clr1 _ _ _ | .tst1 _ _ _ | .setf _ _ | .ldsr _ _ | .stsr _ _ | .shrReg _ _
  | .sarReg _ _ | .shlReg _ _ | .trap _ | .halt | .reti | .di | .ei | .ilgop _ _ _ _ _ => 4

end Sys2Proof
end

