-- ==== Sys2Proof/Decode.lean ====
section
/-!
DEFINITION. From bytes to an instruction or a named rejection, total on any bytes (spec/30_encoding.md R83), and back:
the encoder, written from the formats R62 to R71. Half-words are little endian (R45).
-/

namespace Sys2Proof

/-- Why bytes are no instruction. -/
inductive DecodeReject where
  /-- Fewer bytes than the instruction's length. -/
  | truncated
  /-- A code that is neither defined nor illegal (R80 a, b, c). -/
  | unrecognised
  /-- A defined instruction with a non-zero RFU bit (R80 d, R81). -/
  | reservedField
deriving DecidableEq, Repr

/-- The register a 5-bit field selects (R10). -/
def regOf (b : BitVec 5) : Reg := ⟨b.toNat, b.isLt⟩

/-- The 5-bit field that selects a register (R10). -/
def regBits (r : Reg) : BitVec 5 := BitVec.ofNat 5 r.val

/-- The condition a code names (R171). -/
def Cond.ofCode (b : BitVec 4) : Cond :=
  match b.toNat with
  | 0 => .v | 1 => .c | 2 => .z | 3 => .nh | 4 => .s | 5 => .t | 6 => .lt | 7 => .le
  | 8 => .nv | 9 => .nc | 10 => .nz | 11 => .h | 12 => .ns | 13 => .sa | 14 => .ge | _ => .gt

/-- The code of a condition (R171). -/
def Cond.code : Cond → BitVec 4
  | .v => 0 | .c => 1 | .z => 2 | .nh => 3 | .s => 4 | .t => 5 | .lt => 6 | .le => 7
  | .nv => 8 | .nc => 9 | .nz => 10 | .h => 11 | .ns => 12 | .sa => 13 | .ge => 14 | .gt => 15

/-- The conditional branch of a condition (R85). -/
def Cond.branch (cond : Cond) (d : BitVec 9) : Instr :=
  match cond with
  | .v => .bv d | .c => .bl d | .z => .be d | .nh => .bnh d | .s => .bn d | .t => .br d | .lt => .blt d | .le => .ble d
  | .nv => .bnv d | .nc => .bnl d | .nz => .bne d | .h => .bh d | .ns => .bp d | .sa => .bsa d | .ge => .bge d
  | .gt => .bgt d

/-- 32 bits long exactly when bits 10 and 9 of the first half-word are both 1 (R61). -/
def isLong (h0 : Half) : Bool := h0.getLsbD 10 && h0.getLsbD 9

/-- Rows 0000 to 0011 of map (a), format I (R62, R75); JMP needs bits 15 to 11 zero (R78, R80 c). -/
def decodeFormatI (h0 : Half) : Except DecodeReject Instr :=
  let reg2 := regOf (h0.extractLsb' 11 5)
  let reg1 := regOf (h0.extractLsb' 0 5)
  match (h0.extractLsb' 7 4).toNat, (h0.extractLsb' 5 2).toNat with
  | 0, 0 => .ok (if reg1 = 0 ∧ reg2 = 0 then .nop else .movReg reg1 reg2)
  | 0, 1 => .ok (.notReg reg1 reg2)
  | 0, 2 => .ok (.divh reg1 reg2)
  | 0, _ => if reg2 = 0 then .ok (.jmp reg1) else .error .unrecognised
  | 1, 0 => .ok (.satsubr reg1 reg2)
  | 1, 1 => .ok (.satsub reg1 reg2)
  | 1, 2 => .ok (.sataddReg reg1 reg2)
  | 1, _ => .ok (.mulhReg reg1 reg2)
  | 2, 0 => .ok (.orReg reg1 reg2)
  | 2, 1 => .ok (.xorReg reg1 reg2)
  | 2, 2 => .ok (.andReg reg1 reg2)
  | 2, _ => .ok (.tst reg1 reg2)
  | _, 0 => .ok (.subr reg1 reg2)
  | _, 1 => .ok (.sub reg1 reg2)
  | _, 2 => .ok (.addReg reg1 reg2)
  | _, _ => .ok (.cmpReg reg1 reg2)

/-- Rows 0100 and 0101 of map (a), format II (R63, R75). -/
def decodeFormatII (h0 : Half) : Except DecodeReject Instr :=
  let reg2 := regOf (h0.extractLsb' 11 5)
  let imm5 := h0.extractLsb' 0 5
  match (h0.extractLsb' 7 4).toNat, (h0.extractLsb' 5 2).toNat with
  | 4, 0 => .ok (.movImm imm5 reg2)
  | 4, 1 => .ok (.sataddImm imm5 reg2)
  | 4, 2 => .ok (.addImm imm5 reg2)
  | 4, _ => .ok (.cmpImm imm5 reg2)
  | _, 0 => .ok (.shrImm imm5 reg2)
  | _, 1 => .ok (.sarImm imm5 reg2)
  | _, 2 => .ok (.shlImm imm5 reg2)
  | _, _ => .ok (.mulhImm imm5 reg2)

/-- The first half-word read as a 16-bit instruction: rows 0000 to 1011 of map (a) (R75, R76 b, R83 step 2). -/
def decodeShort (h0 : Half) : Except DecodeReject Instr :=
  let reg2 := regOf (h0.extractLsb' 11 5)
  let disp7 := h0.extractLsb' 0 7
  match (h0.extractLsb' 7 4).toNat with
  | 0 | 1 | 2 | 3 => decodeFormatI h0
  | 4 | 5 => decodeFormatII h0
  | 6 => .ok (.sldB disp7 reg2)
  | 7 => .ok (.sstB reg2 disp7)
  | 8 => .ok (.sldH (disp7 ++ 0#1) reg2)
  | 9 => .ok (.sstH reg2 (disp7 ++ 0#1))
  | 10 =>
    if h0.getLsbD 0 then .ok (.sstW reg2 (h0.extractLsb' 1 6 ++ 0#2))
    else .ok (.sldW (h0.extractLsb' 1 6 ++ 0#2) reg2)
  | 11 => .ok ((Cond.ofCode (h0.extractLsb' 0 4)).branch (h0.extractLsb' 11 5 ++ h0.extractLsb' 4 3 ++ 0#1))
  | _ => .error .unrecognised

/-- Op code 111111, bits 26 to 23 below 0011b: maps (e) and (f) with the RFU checks of R81 (R77, R83 steps 3, 4). -/
def decodeExtension (h0 h1 : Half) : Except DecodeReject Instr :=
  let hi := h0.extractLsb' 11 5
  let lo := h0.extractLsb' 0 5
  let rfu : Bool := h1.extractLsb' 11 5 == 0#5 && h1.extractLsb' 0 5 == 0#5
  match (h1.extractLsb' 5 6).toNat with
  | 0 => if rfu && !h0.getLsbD 4 then .ok (.setf (Cond.ofCode (h0.extractLsb' 0 4)) (regOf hi)) else .error .reservedField
  | 1 => if rfu then .ok (.ldsr (regOf lo) hi) else .error .reservedField
  | 2 => if rfu then .ok (.stsr lo (regOf hi)) else .error .reservedField
  | 4 => if rfu then .ok (.shrReg (regOf lo) (regOf hi)) else .error .reservedField
  | 5 => if rfu then .ok (.sarReg (regOf lo) (regOf hi)) else .error .reservedField
  | 6 => if rfu then .ok (.shlReg (regOf lo) (regOf hi)) else .error .reservedField
  | 8 => if rfu && hi == 0#5 then .ok (.trap lo) else .error .reservedField
  | 9 => if rfu && hi == 0#5 && lo == 0#5 then .ok .halt else .error .reservedField
  | 10 => if rfu && hi == 0#5 && lo == 0#5 then .ok .reti else .error .reservedField
  | 11 =>
    if h0.extractLsb' 13 2 == 0#2 then
      if rfu && h0.extractLsb' 11 2 == 0#2 && lo == 0#5 then .ok (if h0.getLsbD 15 then .ei else .di)
      else .error .reservedField
    else .error .unrecognised
  | _ => .error .unrecognised

/-- Two half-words read as a 32-bit instruction: rows 1100 to 1111 of map (a) (R75, R76 c, d, R79, R83 step 3). -/
def decodeLong (h0 h1 : Half) : Except DecodeReject Instr :=
  let reg2 := regOf (h0.extractLsb' 11 5)
  let reg1 := regOf (h0.extractLsb' 0 5)
  match (h0.extractLsb' 7 4).toNat, (h0.extractLsb' 5 2).toNat with
  | 12, 0 => .ok (.addi h1 reg1 reg2)
  | 12, 1 => .ok (.movea h1 reg1 reg2)
  | 12, 2 => .ok (.movhi h1 reg1 reg2)
  | 12, _ => .ok (.satsubi h1 reg1 reg2)
  | 13, 0 => .ok (.ori h1 reg1 reg2)
  | 13, 1 => .ok (.xori h1 reg1 reg2)
  | 13, 2 => .ok (.andi h1 reg1 reg2)
  | 13, _ => .ok (.mulhi h1 reg1 reg2)
  | 14, 0 => .ok (.ldB h1 reg1 reg2)
  | 14, 1 =>
    if h1.getLsbD 0 then .ok (.ldW (h1.extractLsb' 1 15 ++ 0#1) reg1 reg2)
    else .ok (.ldH (h1.extractLsb' 1 15 ++ 0#1) reg1 reg2)
  | 14, 2 => .ok (.stB reg2 h1 reg1)
  | 14, _ =>
    if h1.getLsbD 0 then .ok (.stW reg2 (h1.extractLsb' 1 15 ++ 0#1) reg1)
    else .ok (.stH reg2 (h1.extractLsb' 1 15 ++ 0#1) reg1)
  | 15, 2 =>
    let bit3 := h0.extractLsb' 11 3
    match (h0.extractLsb' 14 2).toNat with
    | 0 => .ok (.set1 bit3 h1 reg1)
    | 1 => .ok (.not1 bit3 h1 reg1)
    | 2 => .ok (.clr1 bit3 h1 reg1)
    | _ => .ok (.tst1 bit3 h1 reg1)
  | 15, 3 =>
    if 3 ≤ (h1.extractLsb' 7 4).toNat then
      .ok (.ilgop (h0.extractLsb' 11 5) (h0.extractLsb' 0 5) (h1.extractLsb' 11 5) (h1.extractLsb' 7 4)
        (h1.extractLsb' 0 7))
    else decodeExtension h0 h1
  | 15, _ =>
    let disp22 := h0.extractLsb' 0 6 ++ h1.extractLsb' 1 15 ++ 0#1
    if h1.getLsbD 0 then .error .reservedField
    else if reg2 = 0 then .ok (.jr disp22) else .ok (.jarl disp22 reg2)
  | _, _ => .error .unrecognised

/-- The instruction at the head of a list of bytes, lowest address first, and the bytes after it (R45, R60, R83). -/
def decode (bytes : List Byte) : Except DecodeReject (Instr × List Byte) :=
  match bytes with
  | b0 :: b1 :: rest =>
    if isLong (b1 ++ b0) then
      match rest with
      | b2 :: b3 :: rest' => (decodeLong (b1 ++ b0) (b3 ++ b2)).map fun i => (i, rest')
      | _ => .error .truncated
    else (decodeShort (b1 ++ b0)).map fun i => (i, rest)
  | _ => .error .truncated

/-! ### The encoder -/

/-- Formats I, II, VI, VII and the first half-word of IX and X: `rrrrr oooooo RRRRR` (R62, R63, R67, R68, R70, R71). -/
def packI (hi : BitVec 5) (op : BitVec 6) (lo : BitVec 5) : Half := hi ++ op ++ lo

/-- Format III: `ddddd 1011 ddd cccc` (R64). -/
def packIII (d : BitVec 9) (cond : Cond) : Half := d.extractLsb' 4 5 ++ 0b1011#4 ++ d.extractLsb' 1 3 ++ cond.code

/-- Format IV: `rrrrr oooo ddddddd` (R65). -/
def packIV (reg2 : Reg) (op : BitVec 4) (d : BitVec 7) : Half := regBits reg2 ++ op ++ d

/-- The displacement field of SLD.W and SST.W with its sub-op code (R65). -/
def wordField (d : BitVec 8) (sub : BitVec 1) : BitVec 7 := d.extractLsb' 2 6 ++ sub

/-- The displacement half-word of the half-word and word forms with its sub-op code (R68). -/
def dispField (d : BitVec 16) (sub : BitVec 1) : Half := d.extractLsb' 1 15 ++ sub

/-- Format V: `rrrrr 11110 dddddd`, `ddddddddddddddd 0` (R66). -/
def packV (hi : BitVec 5) (d : BitVec 22) : List Half :=
  [hi ++ 0b11110#5 ++ d.extractLsb' 16 6, d.extractLsb' 1 15 ++ 0#1]

/-- Format VIII: `ss bbb 111110 RRRRR` and disp16 (R69). -/
def packVIII (sub : BitVec 2) (bit3 : BitVec 3) (reg1 : Reg) (d : BitVec 16) : List Half :=
  [sub ++ bit3 ++ 0b111110#6 ++ regBits reg1, d]

/-- Formats IX and X: op code 111111 and a second half-word that holds only the sub-op code in bits 26 to 21 (R70, R71). -/
def packIX (hi lo : BitVec 5) (sub : BitVec 6) : List Half := [packI hi 0b111111#6 lo, 0#5 ++ sub ++ 0#5]

/-- The half-words of an instruction, the first at the lower address (R60). -/
def encode : Instr → List Half
  | .nop => [packI 0#5 0b000000#6 0#5]
  | .movReg reg1 reg2 => [packI (regBits reg2) 0b000000#6 (regBits reg1)]
  | .notReg reg1 reg2 => [packI (regBits reg2) 0b000001#6 (regBits reg1)]
  | .divh reg1 reg2 => [packI (regBits reg2) 0b000010#6 (regBits reg1)]
  | .jmp reg1 => [packI 0#5 0b000011#6 (regBits reg1)]
  | .satsubr reg1 reg2 => [packI (regBits reg2) 0b000100#6 (regBits reg1)]
  | .satsub reg1 reg2 => [packI (regBits reg2) 0b000101#6 (regBits reg1)]
  | .sataddReg reg1 reg2 => [packI (regBits reg2) 0b000110#6 (regBits reg1)]
  | .mulhReg reg1 reg2 => [packI (regBits reg2) 0b000111#6 (regBits reg1)]
  | .orReg reg1 reg2 => [packI (regBits reg2) 0b001000#6 (regBits reg1)]
  | .xorReg reg1 reg2 => [packI (regBits reg2) 0b001001#6 (regBits reg1)]
  | .andReg reg1 reg2 => [packI (regBits reg2) 0b001010#6 (regBits reg1)]
  | .tst reg1 reg2 => [packI (regBits reg2) 0b001011#6 (regBits reg1)]
  | .subr reg1 reg2 => [packI (regBits reg2) 0b001100#6 (regBits reg1)]
  | .sub reg1 reg2 => [packI (regBits reg2) 0b001101#6 (regBits reg1)]
  | .addReg reg1 reg2 => [packI (regBits reg2) 0b001110#6 (regBits reg1)]
  | .cmpReg reg1 reg2 => [packI (regBits reg2) 0b001111#6 (regBits reg1)]
  | .movImm imm5 reg2 => [packI (regBits reg2) 0b010000#6 imm5]
  | .sataddImm imm5 reg2 => [packI (regBits reg2) 0b010001#6 imm5]
  | .addImm imm5 reg2 => [packI (regBits reg2) 0b010010#6 imm5]
  | .cmpImm imm5 reg2 => [packI (regBits reg2) 0b010011#6 imm5]
  | .shrImm imm5 reg2 => [packI (regBits reg2) 0b010100#6 imm5]
  | .sarImm imm5 reg2 => [packI (regBits reg2) 0b010101#6 imm5]
  | .shlImm imm5 reg2 => [packI (regBits reg2) 0b010110#6 imm5]
  | .mulhImm imm5 reg2 => [packI (regBits reg2) 0b010111#6 imm5]
  | .bv d => [packIII d .v]
  | .bl d => [packIII d .c]
  | .be d => [packIII d .z]
  | .bnh d => [packIII d .nh]
  | .bn d => [packIII d .s]
  | .br d => [packIII d .t]
  | .blt d => [packIII d .lt]
  | .ble d => [packIII d .le]
  | .bnv d => [packIII d .nv]
  | .bnl d => [packIII d .nc]
  | .bne d => [packIII d .nz]
  | .bh d => [packIII d .h]
  | .bp d => [packIII d .ns]
  | .bsa d => [packIII d .sa]
  | .bge d => [packIII d .ge]
  | .bgt d => [packIII d .gt]
  | .sldB disp7 reg2 => [packIV reg2 0b0110#4 disp7]
  | .sstB reg2 disp7 => [packIV reg2 0b0111#4 disp7]
  | .sldH disp8 reg2 => [packIV reg2 0b1000#4 (disp8.extractLsb' 1 7)]
  | .sstH reg2 disp8 => [packIV reg2 0b1001#4 (disp8.extractLsb' 1 7)]
  | .sldW disp8 reg2 => [packIV reg2 0b1010#4 (wordField disp8 0#1)]
  | .sstW reg2 disp8 => [packIV reg2 0b1010#4 (wordField disp8 1#1)]
  | .jr disp22 => packV 0#5 disp22
  | .jarl disp22 reg2 => packV (regBits reg2) disp22
  | .addi imm16 reg1 reg2 => [packI (regBits reg2) 0b110000#6 (regBits reg1), imm16]
  | .movea imm16 reg1 reg2 => [packI (regBits reg2) 0b110001#6 (regBits reg1), imm16]
  | .movhi imm16 reg1 reg2 => [packI (regBits reg2) 0b110010#6 (regBits reg1), imm16]
  | .satsubi imm16 reg1 reg2 => [packI (regBits reg2) 0b110011#6 (regBits reg1), imm16]
  | .ori imm16 reg1 reg2 => [packI (regBits reg2) 0b110100#6 (regBits reg1), imm16]
  | .xori imm16 reg1 reg2 => [packI (regBits reg2) 0b110101#6 (regBits reg1), imm16]
  | .andi imm16 reg1 reg2 => [packI (regBits reg2) 0b110110#6 (regBits reg1), imm16]
  | .mulhi imm16 reg1 reg2 => [packI (regBits reg2) 0b110111#6 (regBits reg1), imm16]
  | .ldB disp16 reg1 reg2 => [packI (regBits reg2) 0b111000#6 (regBits reg1), disp16]
  | .ldH disp16 reg1 reg2 => [packI (regBits reg2) 0b111001#6 (regBits reg1), dispField disp16 0#1]
  | .ldW disp16 reg1 reg2 => [packI (regBits reg2) 0b111001#6 (regBits reg1), dispField disp16 1#1]
  | .stB reg2 disp16 reg1 => [packI (regBits reg2) 0b111010#6 (regBits reg1), disp16]
  | .stH reg2 disp16 reg1 => [packI (regBits reg2) 0b111011#6 (regBits reg1), dispField disp16 0#1]
  | .stW reg2 disp16 reg1 => [packI (regBits reg2) 0b111011#6 (regBits reg1), dispField disp16 1#1]
  | .set1 bit3 disp16 reg1 => packVIII 0b00#2 bit3 reg1 disp16
  | .not1 bit3 disp16 reg1 => packVIII 0b01#2 bit3 reg1 disp16
  | .clr1 bit3 disp16 reg1 => packVIII 0b10#2 bit3 reg1 disp16
  | .tst1 bit3 disp16 reg1 => packVIII 0b11#2 bit3 reg1 disp16
  | .setf cccc reg2 => packIX (regBits reg2) (0#1 ++ cccc.code) 0b000000#6
  | .ldsr reg2 regID => packIX regID (regBits reg2) 0b000001#6
  | .stsr regID reg2 => packIX (regBits reg2) regID 0b000010#6
  | .shrReg reg1 reg2 => packIX (regBits reg2) (regBits reg1) 0b000100#6
  | .sarReg reg1 reg2 => packIX (regBits reg2) (regBits reg1) 0b000101#6
  | .shlReg reg1 reg2 => packIX (regBits reg2) (regBits reg1) 0b000110#6
  | .trap vector => packIX 0#5 vector 0b001000#6
  | .halt => packIX 0#5 0#5 0b001001#6
  | .reti => packIX 0#5 0#5 0b001010#6
  | .di => packIX 0b00000#5 0#5 0b001011#6
  | .ei => packIX 0b10000#5 0#5 0b001011#6
  | .ilgop a b c subOp d => [packI a 0b111111#6 b, c ++ subOp ++ d]

/-- A half-word as it is stored: the low byte at the lower address (R45). -/
def halfBytes (h : Half) : List Byte := [h.extractLsb' 0 8, h.extractLsb' 8 8]

/-- The bytes of an instruction, lowest address first (R45, R60). -/
def encodeBytes (i : Instr) : List Byte := (encode i).flatMap halfBytes

/-- The two half-words of a table word of `nbits` bits, every bit above them 0, as bytes in memory order. -/
def tableBytes (nbits w : Nat) : List Byte :=
  let v : BitVec 32 := BitVec.ofNat 32 (w % 2 ^ nbits)
  halfBytes (v.extractLsb' 0 16) ++ halfBytes (v.extractLsb' 16 16)

/-- The instruction the decoder reads from a word numbered as spec/opcode_table.json numbers it (R87); none where it
rejects the word. -/
def decodeTableWord (nbits w : Nat) : Option Instr :=
  match decode (tableBytes nbits w) with
  | .ok (i, _) => some i
  | .error _ => none

end Sys2Proof
end

