-- ==== Sys2Proof/Machine/Fetch.lean ====
section
/-!
DEFINITION. Fetching the bytes of the next instruction and decoding them (spec/20_memory.md R41, R45; spec/30_encoding.md
R83). The program counter addresses the bottom 16 MB of the one memory (D2, log 8); the current memory is read (log 7).
-/

namespace Sys2Proof.Machine

/-- The half-word at a program address (R41, R45); an unmapped byte faults (D11, log 4). -/
def State.fetchHalf (s : State) (a : PcVal) : Except Stop Half :=
  if allBytes (readable s.product) a.toNat 2 then .ok (Memory.read s.mem (a.toNat + 1) ++ Memory.read s.mem a.toNat)
  else .error (.fault (.unmappedFetch a))

/-- The bytes of the instruction at the pc, lowest address first: one half-word, or two when the first says so (R61, R83).
A 32-bit instruction at the top of program space is refused (D3, log 9). -/
def State.fetchBytes (s : State) : Except Stop (List Byte) :=
  match s.fetchHalf s.pc with
  | .error e => .error e
  | .ok h0 =>
    if isLong h0 then
      if 2 ^ 24 ≤ s.pc.toNat + 2 then .error (.refusal .fetchStraddlesTop)
      else
        match s.fetchHalf (s.pc + 2#24) with
        | .error e => .error e
        | .ok h1 => .ok (halfBytes h0 ++ halfBytes h1)
    else .ok (halfBytes h0)

/-- The refusal of a code that is no instruction (R80, D12, log 19). -/
def rejectStop (pc : PcVal) : DecodeReject → Stop
  | .truncated => .refusal (.unrecognisedCode pc)
  | .unrecognised => .refusal (.unrecognisedCode pc)
  | .reservedField => .refusal (.reservedField pc)

/-- The instruction at the pc (R83). -/
def State.fetch (s : State) : Except Stop Instr :=
  match s.fetchBytes with
  | .error e => .error e
  | .ok bytes =>
    match decode bytes with
    | .ok (i, _) => .ok i
    | .error r => .error (rejectStop s.pc r)

end Sys2Proof.Machine
end

