-- ==== Sys2Proof/Machine/Interrupts.lean ====
section
/-!
DEFINITION. What happens at an instruction boundary before the next instruction (spec/60_exceptions.md R215 to R218, R222,
R223, R240; spec/70_reset_and_hazards.md R250): the reset input, the writes of other bus agents, the acceptance of an
interrupt, and waiting in the HALT mode.
-/

namespace Sys2Proof.Machine

/-- The input of this boundary; past the end of the schedule nothing arrives (log 17). -/
def State.nextInput (s : State) : Input := s.inputs.headD Input.quiet

/-- The schedule moved on by one boundary. -/
def State.dropInput (s : State) : State := { s with inputs := s.inputs.tail }

/-- A byte written by another bus agent: it reaches EXTERNAL_RANGES only, never ROM or RAM (D7, log 15). -/
def State.busWrite (c : Host.Cell) (s : State) : State :=
  if inExternal s.product c.1 && !inRom s.product c.1 && !inRam s.product c.1 then s.setMem (Memory.write c.1 c.2 s.mem)
  else s

/-- The bytes other bus agents write at one boundary, in order. -/
def State.busWrites : List Host.Cell → State → State
  | [], s => s
  | c :: cs, s => State.busWrites cs (s.busWrite c)

/-- The reset event (R250, R30): pc, PSW and ECR as the table says, r0 zero, not halted; the registers the table calls
undefined take free values (D15, log 22); memory, the map and the environment's inputs stay. -/
def State.takeReset (s : State) : State :=
  State.tick
    { s with
      gpr := Vector.ofFn fun r => if r = 0 then 0#32 else Config.resetValue s.freeCount (.gpr r)
      pc := 0x000000#24
      psw := 0x20#8
      eipc := (Config.resetValue s.freeCount .eipc).extractLsb' 0 24
      eipsw := (Config.resetValue s.freeCount .eipsw).extractLsb' 0 8
      fepc := (Config.resetValue s.freeCount .fepc).extractLsb' 0 24
      fepsw := (Config.resetValue s.freeCount .fepsw).extractLsb' 0 8
      fecc := 0x0000#16
      eicc := 0x0000#16
      halted := false }

/-- The NMI is accepted when it is requested and NP = 0 (R217). -/
def nmiAccepted (inp : Input) (p : Psw) : Bool := inp.nmiReq && !Psw.np p

/-- The maskable request that is accepted: the one presented, when NP = 0 and ID = 0 (R217). -/
def intAccepted (inp : Input) (p : Psw) : Option IntRequest := if Psw.np p || Psw.id p then none else inp.intReq

/-- NMI entry; it ends the HALT mode and is acknowledged (R215, R223, R240). -/
def State.takeNmi (s : State) : State := ((s.enter (nmiEntry s)).setHalted false).emit .ackNmi

/-- Maskable interrupt entry; it ends the HALT mode and is acknowledged (R215, R222, R240). -/
def State.takeInt (req : IntRequest) (s : State) : State :=
  ((s.enter (intEntry req s)).setHalted false).emit (.ackInt req)

/-- What a boundary leads to. -/
inductive Boundary where
  /-- A reset or an interrupt entry was this step. -/
  | entered (s : State)
  /-- The HALT mode goes on: no instruction this step (R240). -/
  | waiting (s : State)
  /-- An instruction runs from this state. -/
  | run (s : State)
deriving DecidableEq, Repr

/-- One boundary: other agents' writes, then reset before everything (R250), then NMI before maskable (R218, D6), then the
HALT mode, then the instruction. -/
def State.boundary (s : State) : Boundary :=
  let inp := s.nextInput
  let t := State.busWrites inp.busWrites s.dropInput
  if inp.reset then .entered t.takeReset
  else if nmiAccepted inp t.psw then .entered t.takeNmi
  else
    match intAccepted inp t.psw with
    | some req => .entered (t.takeInt req)
    | none => if t.halted then .waiting t else .run t

end Sys2Proof.Machine
end

