-- ==== Sys2Proof/Machine/Step.lean ====
section
/-!
DEFINITION. One step of the machine: one instruction boundary and what follows it (spec/60_exceptions.md R216, R240). And the
state with an instruction stored where the next step fetches it.
-/

namespace Sys2Proof.Machine

/-- One step: a reset or an interrupt entry, a wait in the HALT mode, or one instruction (R216, R218, R240). -/
def step (s : State) : Host.Outcome State Fault Refusal :=
  match s.boundary with
  | .entered t => .next t
  | .waiting t => .next t
  | .run t =>
    match t.fetch with
    | .ok i => exec i t
    | .error e => e.result

/-- The state with an instruction of spec/opcode_table.json's numbering stored at the pc (4 bytes, the bits above `nbits`
zero), so that the next step runs it: not halted, and no input arrives (log 30). -/
def State.withFetchWord (s : State) (nbits w : Nat) : State :=
  { s with
    mem := Memory.writeBytes s.pc.toNat (tableBytes nbits w) s.mem
    halted := false
    inputs := [] }

end Sys2Proof.Machine
end

