-- ==== Sys2Proof/Machine/Timing.lean ====
section
/-!
DEFINITION. Table 5-10, the bytes and the execution clocks of every instruction (spec/70_reset_and_hazards.md R270). Clock counts
are no architectural state and no step reads them (R272, log 29); the bytes are what the decoder and the pc use (R15, R61).
-/

namespace Sys2Proof.Machine

/-- A row of table 5-10: the bytes, and the clocks to issue (another instruction follows), to repeat (the same instruction
follows) and of latency (the next instruction uses the result), with code in internal ROM and data in internal RAM (R270, R271). -/
structure Clocks where
  bytes : Nat
  issue : Nat
  repeated : Nat
  latency : Nat
deriving DecidableEq, Repr

/-- The two rows of Bcond: the condition satisfied, or not (R270). -/
def Clocks.bcond (taken : Bool) : Clocks := if taken then ⟨2, 3, 3, 3⟩ else ⟨2, 1, 1, 1⟩

/-- The row of LDSR: latency 3 for EIPC and FEPC, 1 for EIPSW, FEPSW and PSW; the table has none for a register that LDSR may not
write (R270, R16). -/
def Clocks.ldsr (regID : BitVec 5) : Option Clocks :=
  match SysReg.ofId regID with
  | some .eipc | some .fepc => some ⟨4, 1, 1, 3⟩
  | some .eipsw | some .fepsw | some .psw => some ⟨4, 1, 1, 1⟩
  | some .ecr | none => none

/-- The row of STSR; the table has none for a reserved register (R270, R16). -/
def Clocks.stsr (regID : BitVec 5) : Option Clocks := (SysReg.ofId regID).map fun _ => ⟨4, 1, 1, 1⟩

/-- The row of an instruction that executes with a PSW, which decides the row of Bcond (R270). -/
def tableClocks (p : Psw) : Instr → Option Clocks
  | .sldB _ _ | .sldH _ _ | .sldW _ _ => some ⟨2, 1, 1, 2⟩
  | .sstB _ _ | .sstH _ _ | .sstW _ _ => some ⟨2, 1, 1, 1⟩
  | .ldB _ _ _ | .ldH _ _ _ | .ldW _ _ _ => some ⟨4, 1, 1, 2⟩
  | .stB _ _ _ | .stH _ _ _ | .stW _ _ _ => some ⟨4, 1, 1, 1⟩
  | .movReg _ _ | .movImm _ _ => some ⟨2, 1, 1, 1⟩
  | .movea _ _ _ | .movhi _ _ _ => some ⟨4, 1, 1, 1⟩
  | .divh _ _ => some ⟨2, 36, 36, 36⟩
  | .mulhReg _ _ | .mulhImm _ _ => some ⟨2, 1, 1, 2⟩
  | .mulhi _ _ _ => some ⟨4, 1, 1, 2⟩
  | .addReg _ _ | .addImm _ _ | .cmpReg _ _ | .cmpImm _ _ | .subr _ _ | .sub _ _ => some ⟨2, 1, 1, 1⟩
  | .addi _ _ _ | .setf _ _ => some ⟨4, 1, 1, 1⟩
  | .satsubr _ _ | .satsub _ _ | .sataddReg _ _ | .sataddImm _ _ => some ⟨2, 1, 1, 1⟩
  | .satsubi _ _ _ => some ⟨4, 1, 1, 1⟩
  | .notReg _ _ | .orReg _ _ | .xorReg _ _ | .andReg _ _ | .tst _ _ => some ⟨2, 1, 1, 1⟩
  | .shrImm _ _ | .sarImm _ _ | .shlImm _ _ => some ⟨2, 1, 1, 1⟩
  | .ori _ _ _ | .xori _ _ _ | .andi _ _ _ => some ⟨4, 1, 1, 1⟩
  | .shrReg _ _ | .sarReg _ _ | .shlReg _ _ => some ⟨4, 1, 1, 1⟩
  | .jmp _ => some ⟨2, 3, 3, 3⟩
  | .jr _ | .jarl _ _ => some ⟨4, 3, 3, 3⟩
  | .bv _ => some (.bcond (Psw.holds p .v))
  | .bl _ => some (.bcond (Psw.holds p .c))
  | .be _ => some (.bcond (Psw.holds p .z))
  | .bnh _ => some (.bcond (Psw.holds p .nh))
  | .bn _ => some (.bcond (Psw.holds p .s))
  | .br _ => some (.bcond (Psw.holds p .t))
  | .blt _ => some (.bcond (Psw.holds p .lt))
  | .ble _ => some (.bcond (Psw.holds p .le))
  | .bnv _ => some (.bcond (Psw.holds p .nv))
  | .bnl _ => some (.bcond (Psw.holds p .nc))
  | .bne _ => some (.bcond (Psw.holds p .nz))
  | .bh _ => some (.bcond (Psw.holds p .h))
  | .bp _ => some (.bcond (Psw.holds p .ns))
  | .bsa _ => some (.bcond (Psw.holds p .sa))
  | .bge _ => some (.bcond (Psw.holds p .ge))
  | .bgt _ => some (.bcond (Psw.holds p .gt))
  | .set1 _ _ _ | .clr1 _ _ _ | .not1 _ _ _ => some ⟨4, 4, 4, 4⟩
  | .tst1 _ _ _ => some ⟨4, 3, 3, 3⟩
  | .ldsr _ regID => Clocks.ldsr regID
  | .stsr regID _ => Clocks.stsr regID
  | .nop => some ⟨2, 1, 1, 1⟩
  | .di | .ei | .halt => some ⟨4, 1, 1, 1⟩
  | .trap _ => some ⟨4, 4, 4, 4⟩
  | .reti => some ⟨4, 4, 4, 4⟩
  | .ilgop _ _ _ _ _ => some ⟨4, 4, 4, 4⟩

end Sys2Proof.Machine
end

