-- ==== Sys2Proof/Safety.lean ====
section
/-!
DEFINITION. What counts as a well-formed state and as a safe step, and the vocabulary of the statements: what an instruction
keeps (its frame), what it writes, and the flag rules said in integer arithmetic, apart from the functions that compute them.
-/

namespace Sys2Proof.Machine

/-- The invariant of the machine: memory is in canonical form (R40, log 2), bit 0 of the pc is 0 (R14), and the cell of r0
holds 0 (R11). -/
def State.wf (s : State) : Bool := Memory.wf s.mem && !s.pc.getLsbD 0 && (s.gpr[0] == 0#32)

/-- A step that answers a next state. -/
def Safe (o : Result) : Prop := ∃ t, o = .next t

/-! ### Frames -/

/-- Every general register outside `ds` reads as before. -/
def RegsKept (ds : List Reg) (s t : State) : Prop := ∀ r, r ∉ ds → t.reg r = s.reg r

/-- EIPC, EIPSW, FEPC, FEPSW and both halves of ECR keep their values. -/
def SysKept (s t : State) : Prop :=
  t.eipc = s.eipc ∧ t.eipsw = s.eipsw ∧ t.fepc = s.fepc ∧ t.fepsw = s.fepsw ∧ t.fecc = s.fecc ∧ t.eicc = s.eicc

/-- Every byte of memory reads as before. -/
def MemKept (s t : State) : Prop := ∀ a, Memory.read t.mem a = Memory.read s.mem a

/-- Every byte of memory outside the `n` bytes from `a` up reads as before. -/
def MemKeptOutside (a n : Nat) (s t : State) : Prop :=
  ∀ k, k < a ∨ a + n ≤ k → Memory.read t.mem k = Memory.read s.mem k

/-- The HALT bit, the schedule of inputs and the product's map keep their values. -/
def ModeKept (s t : State) : Prop := t.halted = s.halted ∧ t.inputs = s.inputs ∧ t.product = s.product

/-- The model's own counter and record keep their values. -/
def BookKept (s t : State) : Prop := t.freeCount = s.freeCount ∧ t.events = s.events

/-- Everything but the pc, the PSW and the registers of `ds` is kept. -/
def FrameBut (ds : List Reg) (s t : State) : Prop :=
  RegsKept ds s t ∧ SysKept s t ∧ MemKept s t ∧ ModeKept s t ∧ BookKept s t

/-- SAT, ID, EP and NP keep their values. -/
def StatusKept (p q : Psw) : Prop :=
  Psw.sat q = Psw.sat p ∧ Psw.id q = Psw.id p ∧ Psw.ep q = Psw.ep p ∧ Psw.np q = Psw.np p

/-- CY, OV, S, Z and SAT keep their values. -/
def ConditionsKept (p q : Psw) : Prop :=
  Psw.cy q = Psw.cy p ∧ Psw.ov q = Psw.ov p ∧ Psw.s q = Psw.s p ∧ Psw.z q = Psw.z p ∧ Psw.sat q = Psw.sat p

/-! ### What is written -/

/-- After a write of `v`, register `r` reads `v`; r0 reads 0 (R11). -/
def Written (t : State) (r : Reg) (v : Word) : Prop := t.reg r = if r = 0 then 0#32 else v

/-- The pc has moved past an instruction of `n` bytes, modulo 2^24, bit 0 fixed to 0 (R14, R15). -/
def PastPc (n : Nat) (s t : State) : Prop := t.pc = (s.pc + BitVec.ofNat 24 n) &&& 0xFFFFFE#24

/-- The instruction completes, writes `v` to `reg2`, relates the PSWs by `flags`, keeps everything else and moves past itself. -/
def WritesWithFlags (i : Instr) (s : State) (reg2 : Reg) (v : Word) (flags : Psw → Psw → Prop) (n : Nat) : Prop :=
  ∃ t, exec i s = .next t ∧ Written t reg2 v ∧ flags s.psw t.psw ∧ FrameBut [reg2] s t ∧ PastPc n s t

/-- The instruction completes, writes `v` to `reg2`, keeps the PSW and everything else and moves past itself. -/
def WritesOnly (i : Instr) (s : State) (reg2 : Reg) (v : Word) (n : Nat) : Prop :=
  WritesWithFlags i s reg2 v (fun p q => q = p) n

/-- The instruction completes, writes no register, relates the PSWs by `flags`, keeps everything else and moves past itself. -/
def SetsFlagsOnly (i : Instr) (s : State) (flags : Psw → Psw → Prop) (n : Nat) : Prop :=
  ∃ t, exec i s = .next t ∧ flags s.psw t.psw ∧ FrameBut [] s t ∧ PastPc n s t

/-! ### Flag rules in integer arithmetic -/

/-- A signed integer that a word cannot hold. -/
def OutOfWord (n : Int) : Prop := n < -2147483648 ∨ 2147483647 < n

/-- S and Z describe `r`: its sign and whether it is 0. -/
def SignZero (r : Word) (q : Psw) : Prop := (Psw.s q = true ↔ r.toInt < 0) ∧ (Psw.z q = true ↔ r.toNat = 0)

/-- The flags of a + b (R8, R124): carry, signed overflow, sign and zero of the wrapped sum; SAT, ID, EP, NP kept. -/
def SumFlags (a b : Word) (p q : Psw) : Prop :=
  (Psw.cy q = true ↔ 4294967296 ≤ a.toNat + b.toNat) ∧ (Psw.ov q = true ↔ OutOfWord (a.toInt + b.toInt)) ∧
    SignZero (a + b) q ∧ StatusKept p q

/-- The flags of a - b (R8, R127): borrow, signed overflow, sign and zero of the wrapped difference; SAT, ID, EP, NP kept. -/
def DifferenceFlags (a b : Word) (p q : Psw) : Prop :=
  (Psw.cy q = true ↔ a.toNat < b.toNat) ∧ (Psw.ov q = true ↔ OutOfWord (a.toInt - b.toInt)) ∧
    SignZero (a - b) q ∧ StatusKept p q

/-- The flags of a saturated operation (R140): `carry` and the overflow of the exact result, sign and zero of the stored value,
SAT set on overflow and otherwise kept; ID, EP, NP kept. -/
def SaturatedFlags (exact : Int) (carry : Prop) (res : Word) (p q : Psw) : Prop :=
  (Psw.cy q = true ↔ carry) ∧ (Psw.ov q = true ↔ OutOfWord exact) ∧ SignZero res q ∧
    (Psw.sat q = true ↔ Psw.sat p = true ∨ OutOfWord exact) ∧
    Psw.id q = Psw.id p ∧ Psw.ep q = Psw.ep p ∧ Psw.np q = Psw.np p

/-- An exact signed result clamped to the range of a word: sat(n) (R8). -/
def clamp (n : Int) : Int := max (-2147483648) (min 2147483647 n)

/-- The flags of a logical operation with result `r` (R166): OV 0, S and Z of `r`, CY, SAT, ID, EP, NP kept. -/
def LogicFlags (r : Word) (p q : Psw) : Prop :=
  Psw.cy q = Psw.cy p ∧ Psw.ov q = false ∧ SignZero r q ∧ StatusKept p q

/-- The flags of a shift with result `r` (R165): CY as given, OV 0, S and Z of `r`, SAT, ID, EP, NP kept. -/
def ShiftFlags (carry : Prop) (r : Word) (p q : Psw) : Prop :=
  (Psw.cy q = true ↔ carry) ∧ Psw.ov q = false ∧ SignZero r q ∧ StatusKept p q

/-- The flags of DIVH with quotient `r` (R132): OV as given, S and Z of `r`, CY, SAT, ID, EP, NP kept. -/
def QuotientFlags (ov : Bool) (r : Word) (p q : Psw) : Prop :=
  Psw.cy q = Psw.cy p ∧ Psw.ov q = ov ∧ SignZero r q ∧ StatusKept p q

/-- The condition codes as expressions over the flags (R171). -/
def CondTrue (p : Psw) : Cond → Prop
  | .v => Psw.ov p = true
  | .c => Psw.cy p = true
  | .z => Psw.z p = true
  | .nh => Psw.cy p = true ∨ Psw.z p = true
  | .s => Psw.s p = true
  | .t => True
  | .lt => Psw.s p ≠ Psw.ov p
  | .le => Psw.s p ≠ Psw.ov p ∨ Psw.z p = true
  | .nv => Psw.ov p = false
  | .nc => Psw.cy p = false
  | .nz => Psw.z p = false
  | .h => Psw.cy p = false ∧ Psw.z p = false
  | .ns => Psw.s p = false
  | .sa => Psw.sat p = true
  | .ge => Psw.s p = Psw.ov p
  | .gt => Psw.s p = Psw.ov p ∧ Psw.z p = false

/-- The low half-word of a word, read as a signed integer: s16 (R8). -/
def s16 (v : Word) : Int := (v.setWidth 16).toInt

/-! ### Memory accesses -/

/-- What a load of a width writes for the bytes from `a` up: little endian, bytes and half-words sign-extended (R42, R100). -/
def loadedValue (m : List Host.Cell) (a : Nat) : Width → Word
  | .byte => (Memory.read m a).signExtend 32
  | .half => (Memory.read m (a + 1) ++ Memory.read m a).signExtend 32
  | .word => Memory.read m (a + 3) ++ Memory.read m (a + 2) ++ Memory.read m (a + 1) ++ Memory.read m a

/-- The access of width `w` at `a` is to memory, not to the peripheral area, and every byte of it can be read. -/
def ReadableAt (s : State) (w : Width) (a : Word) : Prop :=
  isPeripheral a.toNat = false ∧ ∀ j, j < w.bytes → readable s.product (a.toNat + j) = true

/-- The access of width `w` at `a` is to memory, not to the peripheral area, and some byte of it is outside every range. -/
def UnmappedAt (s : State) (w : Width) (a : Word) : Prop :=
  isPeripheral a.toNat = false ∧ ∃ j, j < w.bytes ∧ readable s.product (a.toNat + j) = false

/-- The access of width `w` at `a` is to memory, every byte of it can be read, and some byte of it is in ROM_RANGE. -/
def TouchesRomAt (s : State) (w : Width) (a : Word) : Prop :=
  ReadableAt s w a ∧ ∃ j, j < w.bytes ∧ inRom s.product (a.toNat + j) = true

/-- The access of width `w` at `a` is to memory, not to the peripheral area, and every byte of it can be stored to. -/
def WritableAt (s : State) (w : Width) (a : Word) : Prop :=
  isPeripheral a.toNat = false ∧ ∀ j, j < w.bytes → writable s.product (a.toNat + j) = true

/-- A load of width `w` from address `adr` (before the alignment mask), readable memory: it completes and writes the datum
to `reg2`. -/
def LoadsFromMemory (i : Instr) (s : State) (w : Width) (adr : Word) (reg2 : Reg) (n : Nat) : Prop :=
  ReadableAt s w (w.align adr) → WritesOnly i s reg2 (loadedValue s.mem (w.align adr).toNat w) n

/-- A load of width `w` from the peripheral area: it completes, writes what the free value gives, and is seen. -/
def LoadsFromPeripheral (i : Instr) (s : State) (w : Width) (adr : Word) (reg2 : Reg) (n : Nat) : Prop :=
  isPeripheral (w.align adr).toNat = true →
    ∃ t, exec i s = .next t ∧
      Written t reg2 (w.extend (Config.peripheralRead s.freeCount (w.align adr))) ∧ t.psw = s.psw ∧
      t.events = .ioRead w (w.align adr) :: s.events ∧ t.freeCount = s.freeCount + 1 ∧
      RegsKept [reg2] s t ∧ SysKept s t ∧ MemKept s t ∧ ModeKept s t ∧ PastPc n s t

/-- A store of width `w` of `reg2` at address `adr` (before the alignment mask), writable memory: it completes, the bytes of
the datum stand at the aligned address, lowest first, and everything else is kept. -/
def StoresToMemory (i : Instr) (s : State) (w : Width) (adr : Word) (reg2 : Reg) (n : Nat) : Prop :=
  WritableAt s w (w.align adr) → Memory.wf s.mem = true →
    ∃ t, exec i s = .next t ∧
      (∀ j, j < w.bytes → Memory.read t.mem ((w.align adr).toNat + j) = (s.reg reg2).extractLsb' (8 * j) 8) ∧
      MemKeptOutside (w.align adr).toNat w.bytes s t ∧
      t.psw = s.psw ∧ RegsKept [] s t ∧ SysKept s t ∧ ModeKept s t ∧ BookKept s t ∧ PastPc n s t

/-- A store of width `w` to the peripheral area: it completes, is seen, and leaves memory alone. -/
def StoresToPeripheral (i : Instr) (s : State) (w : Width) (adr : Word) (reg2 : Reg) (n : Nat) : Prop :=
  isPeripheral (w.align adr).toNat = true →
    ∃ t, exec i s = .next t ∧ t.events = .ioWrite w (w.align adr) (w.low (s.reg reg2)) :: s.events ∧
      t.freeCount = s.freeCount ∧ t.psw = s.psw ∧
      RegsKept [] s t ∧ SysKept s t ∧ MemKept s t ∧ ModeKept s t ∧ PastPc n s t

/-- SET1, CLR1 or NOT1 on writable memory: the addressed bit becomes `new old`, the other bits and bytes stay, Z is the
complement of the old bit. -/
def ModifiesBit (i : Instr) (s : State) (adr : Word) (bit3 : BitVec 3) (new : Bool → Bool) : Prop :=
  WritableAt s .byte adr → Memory.wf s.mem = true →
    ∃ t, exec i s = .next t ∧
      (∀ k, k < 8 → (Memory.read t.mem adr.toNat).getLsbD k =
        if k = bit3.toNat then new ((Memory.read s.mem adr.toNat).getLsbD k) else (Memory.read s.mem adr.toNat).getLsbD k) ∧
      Psw.z t.psw = !(Memory.read s.mem adr.toNat).getLsbD bit3.toNat ∧
      Psw.cy t.psw = Psw.cy s.psw ∧ Psw.ov t.psw = Psw.ov s.psw ∧ Psw.s t.psw = Psw.s s.psw ∧
      StatusKept s.psw t.psw ∧ MemKeptOutside adr.toNat 1 s t ∧
      RegsKept [] s t ∧ SysKept s t ∧ ModeKept s t ∧ BookKept s t ∧ PastPc 4 s t

/-- SET1, CLR1 or NOT1 on the peripheral area: one byte read and one byte written, both seen, Z from the byte read. -/
def ModifiesPeripheralBit (i : Instr) (s : State) (adr : Word) (bit3 : BitVec 3) (new : Bool → Bool) : Prop :=
  isPeripheral adr.toNat = true →
    ∃ t v, exec i s = .next t ∧ t.events = .ioWrite .byte adr v :: .ioRead .byte adr :: s.events ∧
      (∀ k, k < 8 → v.getLsbD k =
        if k = bit3.toNat then new ((Config.peripheralRead s.freeCount adr).getLsbD k)
        else (Config.peripheralRead s.freeCount adr).getLsbD k) ∧
      Psw.z t.psw = !(Config.peripheralRead s.freeCount adr).getLsbD bit3.toNat ∧
      Psw.cy t.psw = Psw.cy s.psw ∧ Psw.ov t.psw = Psw.ov s.psw ∧ Psw.s t.psw = Psw.s s.psw ∧
      StatusKept s.psw t.psw ∧ t.freeCount = s.freeCount + 1 ∧
      RegsKept [] s t ∧ SysKept s t ∧ MemKept s t ∧ ModeKept s t ∧ PastPc 4 s t

/-- A load of width `w` from `adr` with a byte outside every range: it faults at the masked address (D11). -/
def LoadStops (i : Instr) (s : State) (w : Width) (adr : Word) : Prop :=
  UnmappedAt s w (w.align adr) → exec i s = .fault (.unmappedLoad (w.align adr))

/-- A store of width `w` to `adr` with a byte outside every range faults, with a byte in ROM is refused (D11). -/
def StoreStops (i : Instr) (s : State) (w : Width) (adr : Word) : Prop :=
  (UnmappedAt s w (w.align adr) → exec i s = .fault (.unmappedStore (w.align adr))) ∧
    (TouchesRomAt s w (w.align adr) → exec i s = .refused (.storeToRom (w.align adr)))

/-- SET1, CLR1 or NOT1 at a byte outside every range faults on its read, at a byte in ROM is refused on its write (D11). -/
def ModifyStops (i : Instr) (s : State) (adr : Word) : Prop :=
  (UnmappedAt s .byte adr → exec i s = .fault (.unmappedLoad adr)) ∧
    (TouchesRomAt s .byte adr → exec i s = .refused (.storeToRom adr))

/-! ### Control transfers -/

/-- A control transfer to `target` (bit 0 dropped): it completes, keeps the PSW and everything but the pc and the registers of
`ds`. -/
def JumpsTo (i : Instr) (s : State) (ds : List Reg) (target : PcVal) : Prop :=
  ∃ t, exec i s = .next t ∧ t.pc = target &&& 0xFFFFFE#24 ∧ t.psw = s.psw ∧ FrameBut ds s t

/-- The address `d` bytes from `pc`, modulo 2^24 (R170). -/
def relativeTo (pc : PcVal) (d : Int) : PcVal := BitVec.ofInt 24 (pc.toNat + d)

/-- A conditional branch of condition `cond` and displacement `d` (R175). -/
def BranchesOn (i : Instr) (s : State) (cond : Cond) (d : BitVec 9) : Prop :=
  (CondTrue s.psw cond → JumpsTo i s [] (relativeTo s.pc d.toInt)) ∧
    (¬ CondTrue s.psw cond → JumpsTo i s [] (relativeTo s.pc 2))

/-- An exception entry of an instruction (R224, R225): EIPC, EIPSW and EICC saved, EP and ID set, the handler's address in
the pc; NP, the condition flags, FEPC, FEPSW, FECC, memory and the general registers kept. -/
def TakesException (i : Instr) (s : State) (code : BitVec 16) (handler : PcVal) : Prop :=
  ∃ t, exec i s = .next t ∧
    t.eipc = s.pc + 4#24 ∧ t.eipsw = s.psw ∧ t.eicc = code ∧ t.fecc = s.fecc ∧ t.fepc = s.fepc ∧ t.fepsw = s.fepsw ∧
    Psw.ep t.psw = true ∧ Psw.id t.psw = true ∧ Psw.np t.psw = Psw.np s.psw ∧ ConditionsKept s.psw t.psw ∧
    t.pc = handler ∧ RegsKept [] s t ∧ MemKept s t ∧ ModeKept s t ∧ BookKept s t

/-! ### Kinds of instructions -/

/-- The saturated operation instructions (R140). -/
def Saturating (i : Instr) : Prop :=
  (∃ reg1 reg2, i = .sataddReg reg1 reg2) ∨ (∃ imm5 reg2, i = .sataddImm imm5 reg2) ∨
    (∃ reg1 reg2, i = .satsub reg1 reg2) ∨ (∃ imm16 reg1 reg2, i = .satsubi imm16 reg1 reg2) ∨
    (∃ reg1 reg2, i = .satsubr reg1 reg2)

/-- The instructions that write data memory: the six stores, SET1, CLR1 and NOT1 (R46, R47). -/
def StoringInstr (i : Instr) : Prop :=
  (∃ reg2 d, i = .sstB reg2 d) ∨ (∃ reg2 d, i = .sstH reg2 d) ∨ (∃ reg2 d, i = .sstW reg2 d) ∨
    (∃ reg2 d reg1, i = .stB reg2 d reg1) ∨ (∃ reg2 d reg1, i = .stH reg2 d reg1) ∨
    (∃ reg2 d reg1, i = .stW reg2 d reg1) ∨ (∃ b d reg1, i = .set1 b d reg1) ∨ (∃ b d reg1, i = .clr1 b d reg1) ∨
    (∃ b d reg1, i = .not1 b d reg1)

/-- The instructions that read data memory and write none: the six loads and TST1 (R46, R47). -/
def ReadingInstr (i : Instr) : Prop :=
  (∃ d reg2, i = .sldB d reg2) ∨ (∃ d reg2, i = .sldH d reg2) ∨ (∃ d reg2, i = .sldW d reg2) ∨
    (∃ d reg1 reg2, i = .ldB d reg1 reg2) ∨ (∃ d reg1 reg2, i = .ldH d reg1 reg2) ∨
    (∃ d reg1 reg2, i = .ldW d reg1 reg2) ∨ (∃ b d reg1, i = .tst1 b d reg1)

/-- The access of an instruction that writes data memory: its width, and its address before the alignment mask, which is the
meaning's own (R46, R47, R54). -/
def StoresAt (i : Instr) (s : State) (w : Width) (adr : Word) : Prop :=
  (∃ reg2 d, i = .sstB reg2 d ∧ w = .byte ∧ adr = s.eaEp d) ∨ (∃ reg2 d, i = .sstH reg2 d ∧ w = .half ∧ adr = s.eaEp d) ∨
    (∃ reg2 d, i = .sstW reg2 d ∧ w = .word ∧ adr = s.eaEp d) ∨
    (∃ reg2 d reg1, i = .stB reg2 d reg1 ∧ w = .byte ∧ adr = s.eaBased reg1 d) ∨
    (∃ reg2 d reg1, i = .stH reg2 d reg1 ∧ w = .half ∧ adr = s.eaBased reg1 d) ∨
    (∃ reg2 d reg1, i = .stW reg2 d reg1 ∧ w = .word ∧ adr = s.eaBased reg1 d) ∨
    (∃ b d reg1, i = .set1 b d reg1 ∧ w = .byte ∧ adr = s.eaBased reg1 d) ∨
    (∃ b d reg1, i = .clr1 b d reg1 ∧ w = .byte ∧ adr = s.eaBased reg1 d) ∨
    ∃ b d reg1, i = .not1 b d reg1 ∧ w = .byte ∧ adr = s.eaBased reg1 d

/-- The access of an instruction that reads data memory and writes none: its width, and its address before the alignment mask,
which is the meaning's own (R46, R47, R54). -/
def ReadsAt (i : Instr) (s : State) (w : Width) (adr : Word) : Prop :=
  (∃ d reg2, i = .sldB d reg2 ∧ w = .byte ∧ adr = s.eaEp d) ∨ (∃ d reg2, i = .sldH d reg2 ∧ w = .half ∧ adr = s.eaEp d) ∨
    (∃ d reg2, i = .sldW d reg2 ∧ w = .word ∧ adr = s.eaEp d) ∨
    (∃ d reg1 reg2, i = .ldB d reg1 reg2 ∧ w = .byte ∧ adr = s.eaBased reg1 d) ∨
    (∃ d reg1 reg2, i = .ldH d reg1 reg2 ∧ w = .half ∧ adr = s.eaBased reg1 d) ∨
    (∃ d reg1 reg2, i = .ldW d reg1 reg2 ∧ w = .word ∧ adr = s.eaBased reg1 d) ∨
    ∃ b d reg1, i = .tst1 b d reg1 ∧ w = .byte ∧ adr = s.eaBased reg1 d

/-- The instructions that take an exception: TRAP and the illegal op code (R211). -/
def ExceptionInstr (i : Instr) : Prop := (∃ vector, i = .trap vector) ∨ (∃ a b c sub d, i = .ilgop a b c sub d)

/-- The instruction does not go on to the next one: JMP, JR, JARL, RETI, an exception, or a conditional branch whose condition
holds (R15, R170). -/
def TransfersControl (i : Instr) (s : State) : Prop :=
  (∃ reg1, i = .jmp reg1) ∨ (∃ d, i = .jr d) ∨ (∃ d reg2, i = .jarl d reg2) ∨ i = .reti ∨ ExceptionInstr i ∨
    ∃ cond d, i = Cond.branch cond d ∧ CondTrue s.psw cond

/-- LDSR to the system register of number `n` (R191). -/
def LoadsSysReg (i : Instr) (n : BitVec 5) : Prop := ∃ reg2, i = .ldsr reg2 n

/-! ### Boundaries -/

/-- At this boundary no reset arrives and no interrupt is acceptable (R215, R217, R250). -/
def NothingAccepted (s : State) : Prop :=
  s.nextInput.reset = false ∧ (s.nextInput.nmiReq = true → Psw.np s.psw = true) ∧
    (s.nextInput.intReq ≠ none → Psw.np s.psw = true ∨ Psw.id s.psw = true)

/-- The state once this boundary's input is taken up: the schedule moved on, other bus agents' bytes written (D7). -/
def State.afterBus (s : State) : State := State.busWrites s.nextInput.busWrites s.dropInput

/-- The bytes of the instruction at the pc decode to `i`. -/
def DecodesTo (s : State) (i : Instr) : Prop := ∃ bytes rest, s.fetchBytes = .ok bytes ∧ decode bytes = .ok (i, rest)

/-- No reset or interrupt comes first at this boundary, the core is not halted, and the bytes at the pc decode to `i`: the
instruction of this step is `i` (R83, R216, R240). -/
def RunsInstruction (s : State) (i : Instr) : Prop := NothingAccepted s ∧ s.halted = false ∧ DecodesTo s.afterBus i

end Sys2Proof.Machine
end

