-- ==== Sys2Proof/Certificates/Slice0/Obligations.lean ====
section
/-!
DEFINITION. The statements for the provers. Each docstring names the rule of spec/ it comes from; where a clause rests on a
decision of the spec or a choice of the model, it names the decision or the log entry.
-/

section ObligationTexts

open Sys2Proof Sys2Proof.Machine

/-! ### Encoding -/

/-- Decoding an encoded well-formed instruction gives it back, and leaves the bytes after it (R62 to R72, R83). -/
def Obligations.DecodeOfEncode : Prop :=
  ∀ (i : Instr) (rest : List Byte), i.wf = true → decode (encodeBytes i ++ rest) = .ok (i, rest)

/-- What the decoder reads is well-formed, and its encoding is the bytes that were read: no two words stand for one
instruction and no bit is dropped (R83, R84). -/
def Obligations.EncodeOfDecode : Prop :=
  ∀ (bytes rest : List Byte) (i : Instr), decode bytes = .ok (i, rest) → i.wf = true ∧ bytes = encodeBytes i ++ rest

/-- Words printed in the rules decode to the instructions they stand for: MOV R120, R121; MOVHI R122; ADD R124; SETF R135; SATADD R142;
SHL R159; SLD.B R101; LD.W R106; JARL R174; Bcond R175; SET1 R180; LDSR R191; STSR R192; TRAP R193; the illegal op code R247 d.
Which field of LDSR is the register and how disp22 is laid out in JARL is PRESUMED, the model's choice with the spec's (R74, G1,
log 26; R66, G2, log 27). -/
def Obligations.PrintedWordsDecode : Prop :=
  decodeTableWord 16 0x3806 = some (.movReg 6 7) ∧ decodeTableWord 16 0x2A1F = some (.movImm 0b11111#5 5) ∧
  decodeTableWord 32 0x12345640 = some (.movhi 0x1234#16 0 10) ∧ decodeTableWord 16 0x39C6 = some (.addReg 6 7) ∧
  decodeTableWord 16 0x3A3F = some (.sataddImm 0b11111#5 7) ∧ decodeTableWord 16 0x32C1 = some (.shlImm 1#5 6) ∧
  decodeTableWord 16 0x3B05 = some (.sldB 5#7 7) ∧ decodeTableWord 32 0x00013724 = some (.ldW 0#16 4 6) ∧
  decodeTableWord 16 0xFDDA = some (.bne 0b111111010#9) ∧ decodeTableWord 32 0x0100FF80 = some (.jarl 0x100#22 31) ∧
  decodeTableWord 32 0x00001FCA = some (.set1 3#3 0#16 10) ∧ decodeTableWord 32 0x000057E2 = some (.setf .z 10) ∧
  decodeTableWord 32 0x002007E6 = some (.ldsr 6 0#5) ∧ decodeTableWord 32 0x00403FE0 = some (.stsr 0#5 7) ∧
  decodeTableWord 32 0x010007FF = some (.trap 31#5) ∧ decodeTableWord 32 0x018007E0 = some (.ilgop 0 0 0 3 0)

/-- An instruction is 32 bits long exactly when bits 10 and 9 of its first half-word are 1, and decoding takes up exactly
its bytes (R61). -/
def Obligations.LengthFromFirstHalfWord : Prop :=
  ∀ (b0 b1 : Byte) (tail rest : List Byte) (i : Instr), decode (b0 :: b1 :: tail) = .ok (i, rest) →
    i.length = (if b1.getLsbD 2 = true ∧ b1.getLsbD 1 = true then 4 else 2) ∧
      tail.length + 2 = i.length + rest.length

/-- The illegal op codes are the 32-bit codes with op code 111111b and bits 26 to 23 from 0011b to 1111b, the other bits
free; the restore PC is the address plus 4 (R79). -/
def Obligations.IllegalOpCodePattern : Prop :=
  (∀ h0 h1 : Half,
    (h0.extractLsb' 5 6 = 0b111111#6 ∧ 3 ≤ (h1.extractLsb' 7 4).toNat) ↔
      ∃ a b c sub d, decode (halfBytes h0 ++ halfBytes h1) = .ok (.ilgop a b c sub d, [])) ∧
    ∀ a b c sub d s, ∃ t, exec (.ilgop a b c sub d) s = .next t ∧ t.eipc = s.pc + 4#24

/-- The codes that are neither defined nor illegal: the undefined entries of maps (e) and (f), and op code 000011 with
bits 15 to 11 not zero (R80 a, b, c; D12). -/
def Obligations.CodesNotRecognised : Prop :=
  ∀ h0 h1 : Half, decode (halfBytes h0 ++ halfBytes h1) = .error .unrecognised ↔
    (h0.extractLsb' 5 6 = 0b111111#6 ∧ (h1.extractLsb' 5 6 = 0b000011#6 ∨ h1.extractLsb' 5 6 = 0b000111#6)) ∨
    (h0.extractLsb' 5 6 = 0b111111#6 ∧ h1.extractLsb' 5 6 = 0b001011#6 ∧ h0.extractLsb' 13 2 ≠ 0#2) ∨
    (h0.extractLsb' 5 6 = 0b000011#6 ∧ h0.extractLsb' 11 5 ≠ 0#5)

/-- The codes with a non-zero RFU bit: bit 16 of JR and JARL; bit 4 of SETF; bits 31 to 27 and 20 to 16 of every format IX
and X instruction; bits 15 to 11 of TRAP, HALT and RETI, 12 to 11 of DI and EI; bits 4 to 0 of HALT, RETI, DI, EI (R81; D12). -/
def Obligations.ReservedBitsRejected : Prop :=
  ∀ h0 h1 : Half, decode (halfBytes h0 ++ halfBytes h1) = .error .reservedField ↔
    (h0.extractLsb' 6 5 = 0b11110#5 ∧ h1.getLsbD 0 = true) ∨
    (h0.extractLsb' 5 6 = 0b111111#6 ∧
      ((h1.extractLsb' 5 6 = 0#6 ∧ h0.getLsbD 4 = true) ∨
       (h1.extractLsb' 5 6 ∈ [8#6, 9#6, 10#6] ∧ h0.extractLsb' 11 5 ≠ 0#5) ∨
       (h1.extractLsb' 5 6 = 11#6 ∧ h0.extractLsb' 13 2 = 0#2 ∧ h0.extractLsb' 11 2 ≠ 0#2) ∨
       (h1.extractLsb' 5 6 ∈ [9#6, 10#6] ∧ h0.extractLsb' 0 5 ≠ 0#5) ∨
       (h1.extractLsb' 5 6 = 11#6 ∧ h0.extractLsb' 13 2 = 0#2 ∧ h0.extractLsb' 0 5 ≠ 0#5) ∨
       ((h1.extractLsb' 5 6 ∈ [0#6, 1#6, 2#6, 4#6, 5#6, 6#6, 8#6, 9#6, 10#6] ∨
          (h1.extractLsb' 5 6 = 11#6 ∧ h0.extractLsb' 13 2 = 0#2)) ∧
        (h1.extractLsb' 11 5 ≠ 0#5 ∨ h1.extractLsb' 0 5 ≠ 0#5))))

/-! ### Reset and whole-machine rules -/

/-- The values that table 7-1 gives after reset (R30). -/
def Obligations.ResetState : Prop :=
  State.reset.pc = 0x000000#24 ∧ State.reset.psw = 0x20#8 ∧ Psw.id State.reset.psw = true ∧
    State.reset.fecc = 0x0000#16 ∧ State.reset.eicc = 0x0000#16 ∧ State.reset.reg 0 = 0#32 ∧ State.reset.halted = false

/-- The reset state is well-formed: memory in canonical form, an even pc, r0 zero. -/
def Obligations.ResetIsWellFormed : Prop := State.reset.wf = true

/-- Every step keeps the invariant: memory in canonical form, the pc even (R14), the cell of r0 zero (R11), whatever the
instruction, the interrupt or the reset. -/
def Obligations.StepKeepsWellFormed : Prop :=
  ∀ s t : State, s.wf = true → step s = .next t → t.wf = true

/-- SAT is cumulative over steps: if a step changes it, a reset came (which clears it, R30), or the step ran an instruction that is
a saturated one, which leaves OV and SAT 1, or LDSR to PSW or RETI; so no interrupt entry, HALT wait or other instruction changes
it. A saturated instruction leaves SAT set exactly when it was set or its own OV is 1. Condition code `sa` is SAT, for BSA and SETF too
(R24). -/
def Obligations.SatIsCumulative : Prop :=
  (∀ s t : State, step s = .next t → Psw.sat t.psw ≠ Psw.sat s.psw →
    (s.nextInput.reset = true ∧ Psw.sat t.psw = false) ∨
      ∃ i, RunsInstruction s i ∧
        ((Saturating i ∧ Psw.ov t.psw = true ∧ Psw.sat t.psw = true) ∨ LoadsSysReg i 5#5 ∨ i = .reti)) ∧
    (∀ (s t : State) (i : Instr), RunsInstruction s i → Saturating i → step s = .next t →
      (Psw.sat t.psw = true ↔ Psw.sat s.psw = true ∨ Psw.ov t.psw = true)) ∧
    ∀ (s : State) (reg2 : Reg) (d : BitVec 9), (Psw.holds s.psw .sa = true ↔ Psw.sat s.psw = true) ∧
      WritesOnly (.setf .sa reg2) s reg2 (if Psw.sat s.psw = true then 1#32 else 0#32) 4 ∧
      JumpsTo (.bsa d) s [] (relativeTo s.pc (if Psw.sat s.psw = true then d.toInt else 2))

/-- ID, EP and NP change only by DI, EI (ID alone), TRAP and the illegal op code (EP and ID, set), LDSR to PSW and RETI; no
other instruction touches them (R23, R193, R196, R197). -/
def Obligations.InterruptFlagWriters : Prop :=
  ∀ (i : Instr) (s t : State), exec i s = .next t → ¬ LoadsSysReg i 5#5 → i ≠ .reti →
    Psw.np t.psw = Psw.np s.psw ∧
      (Psw.ep t.psw ≠ Psw.ep s.psw → ExceptionInstr i ∧ Psw.ep t.psw = true) ∧
      (Psw.id t.psw ≠ Psw.id s.psw → (Psw.id t.psw = true ∧ (i = .di ∨ ExceptionInstr i)) ∨ (Psw.id t.psw = false ∧ i = .ei))

/-- EIPC, EIPSW, FEPC, FEPSW and ECR change only by TRAP, the illegal op code and LDSR; FECC by no instruction (R17 to R21). -/
def Obligations.SystemRegisterWriters : Prop :=
  ∀ (i : Instr) (s t : State), exec i s = .next t →
    t.fecc = s.fecc ∧ (t.eicc ≠ s.eicc → ExceptionInstr i) ∧
      (t.eipc ≠ s.eipc → ExceptionInstr i ∨ LoadsSysReg i 0#5) ∧ (t.eipsw ≠ s.eipsw → ExceptionInstr i ∨ LoadsSysReg i 1#5) ∧
      (t.fepc ≠ s.fepc → LoadsSysReg i 2#5) ∧ (t.fepsw ≠ s.fepsw → LoadsSysReg i 3#5)

/-- No instruction but the sixteen of R46 touches data memory: only the six stores, SET1, CLR1 and NOT1 change it, and only
they, the loads and TST1 reach the peripheral area. -/
def Obligations.DataMemoryUsers : Prop :=
  ∀ (i : Instr) (s t : State), exec i s = .next t →
    (t.mem ≠ s.mem → StoringInstr i) ∧ (t.events ≠ s.events → StoringInstr i ∨ ReadingInstr i)

/-- No step writes a byte of ROM_RANGE: no instruction, no interrupt, no reset, no other bus agent; and the product's map itself is
fixed (R6, R49; D7, D11; logs 3, 5, 15). -/
def Obligations.RomKeepsItsContents : Prop :=
  ∀ s t : State, step s = .next t →
    t.product = s.product ∧ ∀ a, inRom s.product a = true → Memory.read t.mem a = Memory.read s.mem a

/-- An instruction stops exactly in these cases: the access it stores to (SET1, CLR1, NOT1 among them) has a byte outside every range
or in ROM_RANGE; the access it only reads has a byte outside every range; it is LDSR with the read-only ECR or a reserved
number, or STSR with a reserved number. Accesses are taken at the instruction's own address, masked; nothing else stops (R16,
R44, R49, R211; the stops themselves are D11 and D13: logs 4, 5, 20). -/
def Obligations.InstructionsRunToTheirEnd : Prop :=
  ∀ (i : Instr) (s : State), ¬ Safe (exec i s) ↔
    (∃ w adr, StoresAt i s w adr ∧ (UnmappedAt s w (w.align adr) ∨ TouchesRomAt s w (w.align adr))) ∨
    (∃ w adr, ReadsAt i s w adr ∧ UnmappedAt s w (w.align adr)) ∨
    (∃ n, LoadsSysReg i n ∧ (n.toNat = 4 ∨ 6 ≤ n.toNat)) ∨ (∃ n reg2, i = .stsr n reg2 ∧ 6 ≤ n.toNat)

/-! ### Moves and arithmetic -/

/-- MOV reg1, MOV imm5, MOVHI, MOVEA: the value goes to reg2 (discarded for r0), no flag changes (R120 to R123). -/
def Obligations.MovesWriteRegister : Prop :=
  ∀ (s : State) (reg1 reg2 : Reg) (imm5 : BitVec 5) (imm16 : BitVec 16),
    WritesOnly (.movReg reg1 reg2) s reg2 (s.reg reg1) 2 ∧
    WritesOnly (.movImm imm5 reg2) s reg2 (BitVec.ofInt 32 imm5.toInt) 2 ∧
    WritesOnly (.movhi imm16 reg1 reg2) s reg2 (BitVec.ofNat 32 ((s.reg reg1).toNat + imm16.toNat * 65536)) 4 ∧
    WritesOnly (.movea imm16 reg1 reg2) s reg2 (BitVec.ofInt 32 ((s.reg reg1).toInt + imm16.toInt)) 4

/-- ADD reg1, ADD imm5, ADDI: the sum modulo 2^32 and the flags CY, OV, S, Z (R124 to R126). -/
def Obligations.AddsWriteSumAndFlags : Prop :=
  ∀ (s : State) (reg1 reg2 : Reg) (imm5 : BitVec 5) (imm16 : BitVec 16),
    WritesWithFlags (.addReg reg1 reg2) s reg2 (s.reg reg2 + s.reg reg1) (SumFlags (s.reg reg2) (s.reg reg1)) 2 ∧
    WritesWithFlags (.addImm imm5 reg2) s reg2 (s.reg reg2 + imm5.signExtend 32)
      (SumFlags (s.reg reg2) (imm5.signExtend 32)) 2 ∧
    WritesWithFlags (.addi imm16 reg1 reg2) s reg2 (s.reg reg1 + imm16.signExtend 32)
      (SumFlags (s.reg reg1) (imm16.signExtend 32)) 4

/-- SUB is reg2 - reg1, SUBR is reg1 - reg2; CY is the borrow (R127, R128). -/
def Obligations.SubtractsWriteDifferenceAndFlags : Prop :=
  ∀ (s : State) (reg1 reg2 : Reg),
    WritesWithFlags (.sub reg1 reg2) s reg2 (s.reg reg2 - s.reg reg1) (DifferenceFlags (s.reg reg2) (s.reg reg1)) 2 ∧
    WritesWithFlags (.subr reg1 reg2) s reg2 (s.reg reg1 - s.reg reg2) (DifferenceFlags (s.reg reg1) (s.reg reg2)) 2

/-- CMP writes the flags of reg2 - reg1 or reg2 - imm5 and no register (R133, R134). -/
def Obligations.ComparesSetFlagsOnly : Prop :=
  ∀ (s : State) (reg1 reg2 : Reg) (imm5 : BitVec 5),
    SetsFlagsOnly (.cmpReg reg1 reg2) s (DifferenceFlags (s.reg reg2) (s.reg reg1)) 2 ∧
    SetsFlagsOnly (.cmpImm imm5 reg2) s (DifferenceFlags (s.reg reg2) (imm5.signExtend 32)) 2

/-- After CMP of `a` (reg2) with `b` (reg1 or the sign-extended imm5) the condition codes order them: unsigned by c, nc, nh, h;
signed by lt, ge, le, gt; equality by z, nz (R171, last column). -/
def Obligations.ConditionsOrderComparedOperands : Prop :=
  ∀ (s t : State) (reg2 : Reg) (a b : Word), a = s.reg reg2 →
    (∃ reg1, b = s.reg reg1 ∧ exec (.cmpReg reg1 reg2) s = .next t) ∨
      (∃ imm5 : BitVec 5, b = BitVec.ofInt 32 imm5.toInt ∧ exec (.cmpImm imm5 reg2) s = .next t) →
    (Psw.holds t.psw .c = true ↔ a.toNat < b.toNat) ∧ (Psw.holds t.psw .nc = true ↔ b.toNat ≤ a.toNat) ∧
    (Psw.holds t.psw .nh = true ↔ a.toNat ≤ b.toNat) ∧ (Psw.holds t.psw .h = true ↔ b.toNat < a.toNat) ∧
    (Psw.holds t.psw .lt = true ↔ a.toInt < b.toInt) ∧ (Psw.holds t.psw .ge = true ↔ b.toInt ≤ a.toInt) ∧
    (Psw.holds t.psw .le = true ↔ a.toInt ≤ b.toInt) ∧ (Psw.holds t.psw .gt = true ↔ b.toInt < a.toInt) ∧
    (Psw.holds t.psw .z = true ↔ a = b) ∧ (Psw.holds t.psw .nz = true ↔ a ≠ b)

/-- MULH reg1, MULH imm5, MULHI: the exact product of two signed half-words, no flag changes (R129 to R131, C6). -/
def Obligations.MultipliesWriteSignedProduct : Prop :=
  ∀ (s : State) (reg1 reg2 : Reg) (imm5 : BitVec 5) (imm16 : BitVec 16),
    (∃ v : Word, v.toInt = s16 (s.reg reg2) * s16 (s.reg reg1) ∧ WritesOnly (.mulhReg reg1 reg2) s reg2 v 2) ∧
    (∃ v : Word, v.toInt = s16 (s.reg reg2) * imm5.toInt ∧ WritesOnly (.mulhImm imm5 reg2) s reg2 v 2) ∧
    (∃ v : Word, v.toInt = s16 (s.reg reg1) * imm16.toInt ∧ WritesOnly (.mulhi imm16 reg1 reg2) s reg2 v 4)

/-- DIVH by a non-zero low half-word: 80000000h with OV for 80000000h / -1, else the quotient; CY is kept. That the quotient is
rounded toward zero is PRESUMED (D4, G3; log 11), hence derived (R132). -/
def Obligations.DivhWritesQuotient : Prop :=
  ∀ (s : State) (reg1 reg2 : Reg), s16 (s.reg reg1) ≠ 0 →
    if s.reg reg2 = 0x80000000#32 ∧ s16 (s.reg reg1) = -1 then
      WritesWithFlags (.divh reg1 reg2) s reg2 0x80000000#32 (QuotientFlags true 0x80000000#32) 2
    else
      ∃ q : Word, q.toInt = Int.tdiv (s.reg reg2).toInt (s16 (s.reg reg1)) ∧
        WritesWithFlags (.divh reg1 reg2) s reg2 q (QuotientFlags false q) 2

/-- DIVH by zero completes: OV is set, CY and SAT are kept; the quotient, S and Z are the free values of this index (R132,
U1; log 12). -/
def Obligations.DivhByZero : Prop :=
  ∀ (s : State) (reg1 reg2 : Reg), s16 (s.reg reg1) = 0 →
    ∃ t, exec (.divh reg1 reg2) s = .next t ∧ Written t reg2 (Config.divhQuotient s.freeCount) ∧
      Psw.ov t.psw = true ∧ Psw.s t.psw = Config.divhSign s.freeCount ∧ Psw.z t.psw = Config.divhZero s.freeCount ∧
      Psw.cy t.psw = Psw.cy s.psw ∧ StatusKept s.psw t.psw ∧ RegsKept [reg2] s t ∧ SysKept s t ∧ MemKept s t ∧
      ModeKept s t ∧ t.events = s.events ∧ PastPc 2 s t

/-- SETF writes 1 where the condition holds and 0 where it does not, for each of the sixteen conditions (R135, R171). -/
def Obligations.SetfWritesCondition : Prop :=
  ∀ (s : State) (cccc : Cond) (reg2 : Reg),
    (CondTrue s.psw cccc → WritesOnly (.setf cccc reg2) s reg2 1#32 4) ∧
      (¬ CondTrue s.psw cccc → WritesOnly (.setf cccc reg2) s reg2 0#32 4)

/-! ### Saturated operations -/

/-- SATADD reg1, SATADD imm5, SATSUB, SATSUBI, SATSUBR: the exact signed sum or difference clamped to a word; CY and OV of the
ordinary operation, S and Z of the stored value, SAT set on overflow and else kept; a result to r0 is discarded and the flags
are still written (R140, with the operands of R141 to R145). -/
def Obligations.SaturatedOperationsClamp : Prop :=
  ∀ (s : State) (reg1 reg2 : Reg) (imm5 : BitVec 5) (imm16 : BitVec 16),
    (∃ r : Word, r.toInt = clamp ((s.reg reg2).toInt + (s.reg reg1).toInt) ∧
      WritesWithFlags (.sataddReg reg1 reg2) s reg2 r
        (SaturatedFlags ((s.reg reg2).toInt + (s.reg reg1).toInt)
          (4294967296 ≤ (s.reg reg2).toNat + (s.reg reg1).toNat) r) 2) ∧
    (∃ r : Word, r.toInt = clamp ((s.reg reg2).toInt + imm5.toInt) ∧
      WritesWithFlags (.sataddImm imm5 reg2) s reg2 r
        (SaturatedFlags ((s.reg reg2).toInt + imm5.toInt)
          (4294967296 ≤ (s.reg reg2).toNat + (imm5.signExtend 32).toNat) r) 2) ∧
    (∃ r : Word, r.toInt = clamp ((s.reg reg2).toInt - (s.reg reg1).toInt) ∧
      WritesWithFlags (.satsub reg1 reg2) s reg2 r
        (SaturatedFlags ((s.reg reg2).toInt - (s.reg reg1).toInt) ((s.reg reg2).toNat < (s.reg reg1).toNat) r) 2) ∧
    (∃ r : Word, r.toInt = clamp ((s.reg reg1).toInt - imm16.toInt) ∧
      WritesWithFlags (.satsubi imm16 reg1 reg2) s reg2 r
        (SaturatedFlags ((s.reg reg1).toInt - imm16.toInt) ((s.reg reg1).toNat < (imm16.signExtend 32).toNat) r) 4) ∧
    (∃ r : Word, r.toInt = clamp ((s.reg reg1).toInt - (s.reg reg2).toInt) ∧
      WritesWithFlags (.satsubr reg1 reg2) s reg2 r
        (SaturatedFlags ((s.reg reg1).toInt - (s.reg reg2).toInt) ((s.reg reg1).toNat < (s.reg reg2).toNat) r) 2)

/-! ### Logical operations and shifts -/

/-- OR, AND, XOR, NOT, ORI, ANDI, XORI write the bitwise result, clear OV, set S and Z from it and keep CY; ANDI's S is 0; TST
writes the flags of the AND and no register (R150 to R157, R166). That NOT clears OV is a choice: the source's pages disagree and the
model follows the spec's resolution C1 (log 25); ANDI's S is resolution C3 (log 25). -/
def Obligations.LogicalsWriteResultAndFlags : Prop :=
  ∀ (s : State) (reg1 reg2 : Reg) (imm16 : BitVec 16),
    WritesWithFlags (.orReg reg1 reg2) s reg2 (s.reg reg2 ||| s.reg reg1) (LogicFlags (s.reg reg2 ||| s.reg reg1)) 2 ∧
    WritesWithFlags (.andReg reg1 reg2) s reg2 (s.reg reg2 &&& s.reg reg1) (LogicFlags (s.reg reg2 &&& s.reg reg1)) 2 ∧
    WritesWithFlags (.xorReg reg1 reg2) s reg2 (s.reg reg2 ^^^ s.reg reg1) (LogicFlags (s.reg reg2 ^^^ s.reg reg1)) 2 ∧
    WritesWithFlags (.notReg reg1 reg2) s reg2 (~~~(s.reg reg1)) (LogicFlags (~~~(s.reg reg1))) 2 ∧
    WritesWithFlags (.ori imm16 reg1 reg2) s reg2 (s.reg reg1 ||| imm16.zeroExtend 32)
      (LogicFlags (s.reg reg1 ||| imm16.zeroExtend 32)) 4 ∧
    WritesWithFlags (.andi imm16 reg1 reg2) s reg2 (s.reg reg1 &&& imm16.zeroExtend 32)
      (fun p q => LogicFlags (s.reg reg1 &&& imm16.zeroExtend 32) p q ∧ Psw.s q = false) 4 ∧
    WritesWithFlags (.xori imm16 reg1 reg2) s reg2 (s.reg reg1 ^^^ imm16.zeroExtend 32)
      (LogicFlags (s.reg reg1 ^^^ imm16.zeroExtend 32)) 4 ∧
    SetsFlagsOnly (.tst reg1 reg2) s (LogicFlags (s.reg reg2 &&& s.reg reg1)) 2

/-- SHL is multiplication by 2^n modulo 2^32, SHR division by 2^n, SAR the signed value divided by 2^n rounded down. CY is the last
bit shifted out, 0 for n = 0; OV is 0; the count is the low 5 bits of reg1 or imm5 (R165, for R158 to R163). -/
def Obligations.ShiftsWriteResultAndFlags : Prop :=
  ∀ (s : State) (reg1 reg2 : Reg) (imm5 : BitVec 5) (n : Nat) (v left right arith : Word),
    v = s.reg reg2 → left = BitVec.ofNat 32 (v.toNat * 2 ^ n) → right = BitVec.ofNat 32 (v.toNat / 2 ^ n) →
    arith = BitVec.ofInt 32 (Int.fdiv v.toInt (2 ^ n)) →
    (n = (s.reg reg1).toNat % 32 →
      WritesWithFlags (.shlReg reg1 reg2) s reg2 left (ShiftFlags (1 ≤ n ∧ v.toNat / 2 ^ (32 - n) % 2 = 1) left) 4 ∧
      WritesWithFlags (.shrReg reg1 reg2) s reg2 right (ShiftFlags (1 ≤ n ∧ v.toNat / 2 ^ (n - 1) % 2 = 1) right) 4 ∧
      WritesWithFlags (.sarReg reg1 reg2) s reg2 arith (ShiftFlags (1 ≤ n ∧ v.toNat / 2 ^ (n - 1) % 2 = 1) arith) 4) ∧
    (n = imm5.toNat →
      WritesWithFlags (.shlImm imm5 reg2) s reg2 left (ShiftFlags (1 ≤ n ∧ v.toNat / 2 ^ (32 - n) % 2 = 1) left) 2 ∧
      WritesWithFlags (.shrImm imm5 reg2) s reg2 right (ShiftFlags (1 ≤ n ∧ v.toNat / 2 ^ (n - 1) % 2 = 1) right) 2 ∧
      WritesWithFlags (.sarImm imm5 reg2) s reg2 arith (ShiftFlags (1 ≤ n ∧ v.toNat / 2 ^ (n - 1) % 2 = 1) arith) 2)

/-! ### Branches -/

/-- JMP goes to bits 23 to 1 of reg1; JR and JARL to the pc plus the signed displacement modulo 2^24; JARL leaves the address
after it, modulo 2^24, in reg2 (R170, R172 to R174; D3). -/
def Obligations.JumpsGoToTarget : Prop :=
  ∀ (s : State) (reg1 reg2 : Reg) (disp22 : BitVec 22),
    JumpsTo (.jmp reg1) s [] (BitVec.ofNat 24 (s.reg reg1).toNat) ∧
    JumpsTo (.jr disp22) s [] (relativeTo s.pc disp22.toInt) ∧
    (JumpsTo (.jarl disp22 reg2) s [reg2] (relativeTo s.pc disp22.toInt) ∧
      ∀ t, exec (.jarl disp22 reg2) s = .next t → Written t reg2 (BitVec.ofNat 32 ((s.pc.toNat + 4) % 16777216)))

/-- Each of the sixteen conditional branches goes to the pc plus the signed displacement where its condition holds and to the
next instruction where it does not (R171, R175). -/
def Obligations.BranchesFollowCondition : Prop :=
  ∀ (s : State) (d : BitVec 9),
    BranchesOn (.bv d) s .v d ∧ BranchesOn (.bl d) s .c d ∧ BranchesOn (.be d) s .z d ∧ BranchesOn (.bnh d) s .nh d ∧
    BranchesOn (.bn d) s .s d ∧ BranchesOn (.br d) s .t d ∧ BranchesOn (.blt d) s .lt d ∧ BranchesOn (.ble d) s .le d ∧
    BranchesOn (.bnv d) s .nv d ∧ BranchesOn (.bnl d) s .nc d ∧ BranchesOn (.bne d) s .nz d ∧ BranchesOn (.bh d) s .h d ∧
    BranchesOn (.bp d) s .ns d ∧ BranchesOn (.bsa d) s .sa d ∧ BranchesOn (.bge d) s .ge d ∧ BranchesOn (.bgt d) s .gt d

/-! ### Memory, loads and stores -/

/-- Byte order is little endian: a wider read is made of the bytes at rising addresses, lowest first, and a wider write puts
them there (R42). -/
def Obligations.ByteOrderIsLittleEndian : Prop :=
  ∀ (m : List Host.Cell) (a : Nat) (v : Word) (w : Width) (j : Nat), j < w.bytes →
    (Memory.readLE m a w).extractLsb' (8 * j) 8 = Memory.read m (a + j) ∧
    (Memory.wf m = true → a + w.bytes ≤ 4294967296 →
      Memory.read (Memory.writeLE m a w v) (a + j) = v.extractLsb' (8 * j) 8 ∧
        Memory.readLE (Memory.writeLE m a w v) a w = w.low v)

/-- A misaligned access is the access at the address rounded down to a multiple of its size; a load of memory gives exactly the
bytes from there, and a store that completes touches no byte outside those (R44). -/
def Obligations.AccessesAreAligned : Prop :=
  ∀ (s : State) (w : Width) (adr v : Word),
    (w.align adr).toNat = adr.toNat - adr.toNat % w.bytes ∧ s.load w adr = s.load w (w.align adr) ∧
      s.store w adr v = s.store w (w.align adr) v ∧
      (∀ d t j, s.load w adr = .ok (d, t) → isPeripheral (w.align adr).toNat = false → j < w.bytes →
        d.extractLsb' (8 * j) 8 = Memory.read s.mem (adr.toNat - adr.toNat % w.bytes + j)) ∧
      ∀ t, s.store w adr v = .ok t → MemKeptOutside (adr.toNat - adr.toNat % w.bytes) w.bytes s t

/-- The six loads from readable memory: the datum at the masked address, bytes and half-words sign-extended, goes to reg2; no
flag changes; the address comes from the old registers, modulo 2^32 (R100 to R106; D19). -/
def Obligations.LoadsReadMemory : Prop :=
  ∀ (s : State) (reg1 reg2 : Reg) (disp7 : BitVec 7) (disp8 : BitVec 8) (disp16 : BitVec 16),
    LoadsFromMemory (.sldB disp7 reg2) s .byte (s.reg 30 + disp7.zeroExtend 32) reg2 2 ∧
    LoadsFromMemory (.sldH disp8 reg2) s .half (s.reg 30 + disp8.zeroExtend 32) reg2 2 ∧
    LoadsFromMemory (.sldW disp8 reg2) s .word (s.reg 30 + disp8.zeroExtend 32) reg2 2 ∧
    LoadsFromMemory (.ldB disp16 reg1 reg2) s .byte (s.reg reg1 + disp16.signExtend 32) reg2 4 ∧
    LoadsFromMemory (.ldH disp16 reg1 reg2) s .half (s.reg reg1 + disp16.signExtend 32) reg2 4 ∧
    LoadsFromMemory (.ldW disp16 reg1 reg2) s .word (s.reg reg1 + disp16.signExtend 32) reg2 4

/-- The six loads from the peripheral area complete with the free value of this index, and the environment sees the read (R48,
D11, U14; log 6). -/
def Obligations.LoadsReadPeripherals : Prop :=
  ∀ (s : State) (reg1 reg2 : Reg) (disp7 : BitVec 7) (disp8 : BitVec 8) (disp16 : BitVec 16),
    LoadsFromPeripheral (.sldB disp7 reg2) s .byte (s.reg 30 + disp7.zeroExtend 32) reg2 2 ∧
    LoadsFromPeripheral (.sldH disp8 reg2) s .half (s.reg 30 + disp8.zeroExtend 32) reg2 2 ∧
    LoadsFromPeripheral (.sldW disp8 reg2) s .word (s.reg 30 + disp8.zeroExtend 32) reg2 2 ∧
    LoadsFromPeripheral (.ldB disp16 reg1 reg2) s .byte (s.reg reg1 + disp16.signExtend 32) reg2 4 ∧
    LoadsFromPeripheral (.ldH disp16 reg1 reg2) s .half (s.reg reg1 + disp16.signExtend 32) reg2 4 ∧
    LoadsFromPeripheral (.ldW disp16 reg1 reg2) s .word (s.reg reg1 + disp16.signExtend 32) reg2 4

/-- The six stores to writable memory: the low bytes of reg2 stand at the masked address, lowest first; every other byte and
every register and flag is kept (R100, R107 to R112; D19). -/
def Obligations.StoresWriteMemory : Prop :=
  ∀ (s : State) (reg1 reg2 : Reg) (disp7 : BitVec 7) (disp8 : BitVec 8) (disp16 : BitVec 16),
    StoresToMemory (.sstB reg2 disp7) s .byte (s.reg 30 + disp7.zeroExtend 32) reg2 2 ∧
    StoresToMemory (.sstH reg2 disp8) s .half (s.reg 30 + disp8.zeroExtend 32) reg2 2 ∧
    StoresToMemory (.sstW reg2 disp8) s .word (s.reg 30 + disp8.zeroExtend 32) reg2 2 ∧
    StoresToMemory (.stB reg2 disp16 reg1) s .byte (s.reg reg1 + disp16.signExtend 32) reg2 4 ∧
    StoresToMemory (.stH reg2 disp16 reg1) s .half (s.reg reg1 + disp16.signExtend 32) reg2 4 ∧
    StoresToMemory (.stW reg2 disp16 reg1) s .word (s.reg reg1 + disp16.signExtend 32) reg2 4

/-- The six stores to the peripheral area complete, the environment sees the datum, memory is kept (R48, D11, U14). -/
def Obligations.StoresReachPeripherals : Prop :=
  ∀ (s : State) (reg1 reg2 : Reg) (disp7 : BitVec 7) (disp8 : BitVec 8) (disp16 : BitVec 16),
    StoresToPeripheral (.sstB reg2 disp7) s .byte (s.reg 30 + disp7.zeroExtend 32) reg2 2 ∧
    StoresToPeripheral (.sstH reg2 disp8) s .half (s.reg 30 + disp8.zeroExtend 32) reg2 2 ∧
    StoresToPeripheral (.sstW reg2 disp8) s .word (s.reg 30 + disp8.zeroExtend 32) reg2 2 ∧
    StoresToPeripheral (.stB reg2 disp16 reg1) s .byte (s.reg reg1 + disp16.signExtend 32) reg2 4 ∧
    StoresToPeripheral (.stH reg2 disp16 reg1) s .half (s.reg reg1 + disp16.signExtend 32) reg2 4 ∧
    StoresToPeripheral (.stW reg2 disp16 reg1) s .word (s.reg reg1 + disp16.signExtend 32) reg2 4

/-- The accesses that the map turns away: a load, and the read of a bit instruction, with a byte outside every range faults; a store
with such a byte faults; a store, and the write of SET1, CLR1, NOT1, with a byte in ROM_RANGE is refused; always at the
masked address (D11; logs 4, 5). -/
def Obligations.AccessesOutsideTheMapStop : Prop :=
  ∀ (s : State) (reg1 reg2 : Reg) (disp7 : BitVec 7) (disp8 : BitVec 8) (d : BitVec 16) (bit3 : BitVec 3),
    LoadStops (.sldB disp7 reg2) s .byte (s.reg 30 + disp7.zeroExtend 32) ∧
    LoadStops (.sldH disp8 reg2) s .half (s.reg 30 + disp8.zeroExtend 32) ∧
    LoadStops (.sldW disp8 reg2) s .word (s.reg 30 + disp8.zeroExtend 32) ∧
    LoadStops (.ldB d reg1 reg2) s .byte (s.reg reg1 + d.signExtend 32) ∧
    LoadStops (.ldH d reg1 reg2) s .half (s.reg reg1 + d.signExtend 32) ∧
    LoadStops (.ldW d reg1 reg2) s .word (s.reg reg1 + d.signExtend 32) ∧
    LoadStops (.tst1 bit3 d reg1) s .byte (s.reg reg1 + d.signExtend 32) ∧
    StoreStops (.sstB reg2 disp7) s .byte (s.reg 30 + disp7.zeroExtend 32) ∧
    StoreStops (.sstH reg2 disp8) s .half (s.reg 30 + disp8.zeroExtend 32) ∧
    StoreStops (.sstW reg2 disp8) s .word (s.reg 30 + disp8.zeroExtend 32) ∧
    StoreStops (.stB reg2 d reg1) s .byte (s.reg reg1 + d.signExtend 32) ∧
    StoreStops (.stH reg2 d reg1) s .half (s.reg reg1 + d.signExtend 32) ∧
    StoreStops (.stW reg2 d reg1) s .word (s.reg reg1 + d.signExtend 32) ∧
    ModifyStops (.set1 bit3 d reg1) s (s.reg reg1 + d.signExtend 32) ∧
    ModifyStops (.clr1 bit3 d reg1) s (s.reg reg1 + d.signExtend 32) ∧
    ModifyStops (.not1 bit3 d reg1) s (s.reg reg1 + d.signExtend 32)

/-! ### Bit manipulation -/

/-- SET1, CLR1, NOT1 on writable memory: the addressed bit becomes 1, 0 or its complement, the other bits and bytes are kept, Z is
the complement of the old bit (R180 to R182, R184). -/
def Obligations.BitInstructionsModifyMemory : Prop :=
  ∀ (s : State) (bit3 : BitVec 3) (disp16 : BitVec 16) (reg1 : Reg),
    ModifiesBit (.set1 bit3 disp16 reg1) s (s.reg reg1 + disp16.signExtend 32) bit3 (fun _ => true) ∧
    ModifiesBit (.clr1 bit3 disp16 reg1) s (s.reg reg1 + disp16.signExtend 32) bit3 (fun _ => false) ∧
    ModifiesBit (.not1 bit3 disp16 reg1) s (s.reg reg1 + disp16.signExtend 32) bit3 (fun old => !old)

/-- SET1, CLR1, NOT1 on the peripheral area: one byte read, which is a free value, then the whole byte written, both seen by the
environment (R48, R184; log 6). -/
def Obligations.BitInstructionsReachPeripherals : Prop :=
  ∀ (s : State) (bit3 : BitVec 3) (disp16 : BitVec 16) (reg1 : Reg),
    ModifiesPeripheralBit (.set1 bit3 disp16 reg1) s (s.reg reg1 + disp16.signExtend 32) bit3 (fun _ => true) ∧
    ModifiesPeripheralBit (.clr1 bit3 disp16 reg1) s (s.reg reg1 + disp16.signExtend 32) bit3 (fun _ => false) ∧
    ModifiesPeripheralBit (.not1 bit3 disp16 reg1) s (s.reg reg1 + disp16.signExtend 32) bit3 (fun old => !old)

/-- TST1 reads one byte, from memory or as a free value from the peripheral area, sets Z to the complement of the bit and
writes nothing (R183, R184; log 6). -/
def Obligations.Tst1TestsBit : Prop :=
  ∀ (s : State) (bit3 : BitVec 3) (disp16 : BitVec 16) (reg1 : Reg) (adr : Word),
    adr = s.reg reg1 + disp16.signExtend 32 →
    (ReadableAt s .byte adr →
      SetsFlagsOnly (.tst1 bit3 disp16 reg1) s
        (fun p q => Psw.z q = !(Memory.read s.mem adr.toNat).getLsbD bit3.toNat ∧ Psw.cy q = Psw.cy p ∧
          Psw.ov q = Psw.ov p ∧ Psw.s q = Psw.s p ∧ StatusKept p q) 4) ∧
    (isPeripheral adr.toNat = true →
      ∃ t, exec (.tst1 bit3 disp16 reg1) s = .next t ∧ t.events = .ioRead .byte adr :: s.events ∧
        Psw.z t.psw = !(Config.peripheralRead s.freeCount adr).getLsbD bit3.toNat ∧ Psw.cy t.psw = Psw.cy s.psw ∧
        Psw.ov t.psw = Psw.ov s.psw ∧ Psw.s t.psw = Psw.s s.psw ∧ StatusKept s.psw t.psw ∧
        t.freeCount = s.freeCount + 1 ∧ RegsKept [] s t ∧ SysKept s t ∧ MemKept s t ∧ ModeKept s t ∧ PastPc 4 s t)

/-! ### Special instructions -/

/-- LDSR loads EIPC and FEPC with bits 23 to 0 of reg2, EIPSW, FEPSW and PSW with bits 7 to 0, and changes nothing else
(R17 to R20, R23, R191). -/
def Obligations.LdsrLoadsSystemRegister : Prop :=
  ∀ (s : State) (reg2 : Reg),
    exec (.ldsr reg2 0#5) s =
      .next { s with eipc := BitVec.ofNat 24 (s.reg reg2).toNat, pc := (s.pc + 4#24) &&& 0xFFFFFE#24 } ∧
    exec (.ldsr reg2 1#5) s =
      .next { s with eipsw := BitVec.ofNat 8 (s.reg reg2).toNat, pc := (s.pc + 4#24) &&& 0xFFFFFE#24 } ∧
    exec (.ldsr reg2 2#5) s =
      .next { s with fepc := BitVec.ofNat 24 (s.reg reg2).toNat, pc := (s.pc + 4#24) &&& 0xFFFFFE#24 } ∧
    exec (.ldsr reg2 3#5) s =
      .next { s with fepsw := BitVec.ofNat 8 (s.reg reg2).toNat, pc := (s.pc + 4#24) &&& 0xFFFFFE#24 } ∧
    exec (.ldsr reg2 5#5) s =
      .next { s with psw := BitVec.ofNat 8 (s.reg reg2).toNat, pc := (s.pc + 4#24) &&& 0xFFFFFE#24 }

/-- STSR writes the whole 32-bit value of registers 0 to 5 to reg2, the fixed bits read as 0 (R17 to R22, R192). -/
def Obligations.StsrStoresSystemRegister : Prop :=
  ∀ (s : State) (reg2 : Reg),
    WritesOnly (.stsr 0#5 reg2) s reg2 (BitVec.ofNat 32 s.eipc.toNat) 4 ∧
    WritesOnly (.stsr 1#5 reg2) s reg2 (BitVec.ofNat 32 s.eipsw.toNat) 4 ∧
    WritesOnly (.stsr 2#5 reg2) s reg2 (BitVec.ofNat 32 s.fepc.toNat) 4 ∧
    WritesOnly (.stsr 3#5 reg2) s reg2 (BitVec.ofNat 32 s.fepsw.toNat) 4 ∧
    WritesOnly (.stsr 4#5 reg2) s reg2 (BitVec.ofNat 32 (s.fecc.toNat * 65536 + s.eicc.toNat)) 4 ∧
    WritesOnly (.stsr 5#5 reg2) s reg2 (BitVec.ofNat 32 s.psw.toNat) 4

/-- LDSR and STSR of registers 6 to 31 and LDSR of the read-only ECR, whose results the source calls undefined, are refused by
name (R16, D13, U2, U3; log 20). -/
def Obligations.ReservedSystemRegistersRefused : Prop :=
  ∀ (s : State) (reg2 : Reg) (n : BitVec 5),
    (6 ≤ n.toNat → exec (.ldsr reg2 n) s = .refused (.reservedSystemRegister n) ∧
      exec (.stsr n reg2) s = .refused (.reservedSystemRegister n)) ∧
    exec (.ldsr reg2 4#5) s = .refused .writeProtectedSystemRegister

/-- TRAP takes the software exception whatever NP, EP and ID are: code 0040h + vector, handler 00000040h or 00000050h, restore
PC the next instruction, EP and ID set; a RETI with EP = 1 restores from EIPC and EIPSW, whatever NP is (R224). -/
def Obligations.TrapTakesException : Prop :=
  (∀ (s : State) (vector : BitVec 5),
    TakesException (.trap vector) s (BitVec.ofNat 16 (64 + vector.toNat))
      (if vector.toNat ≤ 15 then 0x000040#24 else 0x000050#24)) ∧
    ∀ s : State, Psw.ep s.psw = true → exec .reti s = .next { s with psw := s.eipsw, pc := s.eipc &&& 0xFFFFFE#24 }

/-- An illegal op code takes the exception trap: handler 00000060h, restore PC the next instruction, EP and ID set, whatever its
other bits and the flags are (R79, R225); the code 0060h is decision D5 (log 13). -/
def Obligations.IllegalOpCodeTakesException : Prop :=
  ∀ (s : State) (a b c : BitVec 5) (sub : BitVec 4) (d : BitVec 7),
    TakesException (.ilgop a b c sub d) s 0x0060#16 0x000060#24

/-- RETI restores the PSW and the pc from FEPC and FEPSW exactly when EP = 0 and NP = 1, else from EIPC and EIPSW; bit 0 of the
saved pc is ignored; nothing else changes (R194, R230). -/
def Obligations.RetiRestores : Prop :=
  ∀ s : State,
    (Psw.ep s.psw = false → Psw.np s.psw = true →
      exec .reti s = .next { s with psw := s.fepsw, pc := s.fepc &&& 0xFFFFFE#24 }) ∧
    (Psw.ep s.psw = true ∨ Psw.np s.psw = false →
      exec .reti s = .next { s with psw := s.eipsw, pc := s.eipc &&& 0xFFFFFE#24 })

/-- A RETI right after a TRAP or an illegal op code goes on after that instruction with the PSW it had (R199, R247 a). -/
def Obligations.RetiUndoesException : Prop :=
  ∀ (i : Instr) (s t : State), ExceptionInstr i → exec i s = .next t →
    ∃ u, exec .reti t = .next u ∧ u.psw = s.psw ∧ PastPc 4 s u ∧ RegsKept [] s u ∧ MemKept s u ∧ ModeKept s u

/-- DI sets ID, EI clears it, every other flag kept (R196, R197). -/
def Obligations.DiAndEiWriteId : Prop :=
  ∀ s : State,
    SetsFlagsOnly .di s (fun p q => Psw.id q = true ∧ Psw.ep q = Psw.ep p ∧ Psw.np q = Psw.np p ∧ ConditionsKept p q) 4 ∧
    SetsFlagsOnly .ei s (fun p q => Psw.id q = false ∧ Psw.ep q = Psw.ep p ∧ Psw.np q = Psw.np p ∧ ConditionsKept p q) 4

/-- NOP advances the pc by two and changes nothing else; HALT enters the HALT mode with the pc after it and changes no register
or flag (R195, R198). -/
def Obligations.NopAdvancesHaltHalts : Prop :=
  ∀ s : State, exec .nop s = .next { s with pc := (s.pc + 2#24) &&& 0xFFFFFE#24 } ∧
    exec .halt s = .next { s with halted := true, pc := (s.pc + 4#24) &&& 0xFFFFFE#24 }

/-! ### Boundaries and steps -/

/-- NMI entry, at any boundary with NP = 0, before a maskable request (the spec's choice D6; log 14) and whether or not the core is
halted: FEPC, FEPSW and FECC are saved, NP and ID set, EP cleared, the pc is 00000010h (R217, R223, R240). That the request is
taken at the very boundary at which the schedule presents it is the model's choice: D17 makes acceptance possible, never forced, and
a later acceptance is a schedule that presents it later (log 18). -/
def Obligations.NmiEntry : Prop :=
  ∀ s : State, s.nextInput.reset = false → s.nextInput.nmiReq = true → Psw.np s.psw = false →
    ∃ t, step s = .next t ∧ t.fepc = s.pc ∧ t.fepsw = s.psw ∧ t.fecc = 0x0010#16 ∧
      t.eipc = s.eipc ∧ t.eipsw = s.eipsw ∧ t.eicc = s.eicc ∧
      Psw.np t.psw = true ∧ Psw.id t.psw = true ∧ Psw.ep t.psw = false ∧ ConditionsKept s.psw t.psw ∧
      t.pc = 0x000010#24 ∧ t.halted = false ∧ t.gpr = s.gpr ∧ t.mem = s.afterBus.mem ∧ t.product = s.product ∧
      t.inputs = s.inputs.tail ∧ t.freeCount = s.freeCount ∧ t.events = .ackNmi :: s.events

/-- Maskable interrupt entry, at any boundary with NP = 0 and ID = 0 and no NMI request: EIPC, EIPSW and EICC are saved, ID set, EP
cleared, the pc is the handler's address (R217, R222, R240). That the request is taken at the very boundary at which the schedule
presents it is the model's choice: D17 makes acceptance possible, never forced, and a later acceptance is a schedule that presents it
later (log 18). -/
def Obligations.MaskableEntry : Prop :=
  ∀ (s : State) (req : IntRequest), s.nextInput.reset = false → s.nextInput.nmiReq = false →
    s.nextInput.intReq = some req → Psw.np s.psw = false → Psw.id s.psw = false →
    ∃ t, step s = .next t ∧ t.eipc = s.pc ∧ t.eipsw = s.psw ∧ t.eicc = req.code ∧
      t.fepc = s.fepc ∧ t.fepsw = s.fepsw ∧ t.fecc = s.fecc ∧
      Psw.np t.psw = false ∧ Psw.id t.psw = true ∧ Psw.ep t.psw = false ∧ ConditionsKept s.psw t.psw ∧
      t.pc = req.handler &&& 0xFFFFFE#24 ∧ t.halted = false ∧ t.gpr = s.gpr ∧ t.mem = s.afterBus.mem ∧
      t.product = s.product ∧ t.inputs = s.inputs.tail ∧ t.freeCount = s.freeCount ∧ t.events = .ackInt req :: s.events

/-- While halted, with no reset and no acceptable request (NP = 1 blocks both kinds, ID = 1 the maskable), no instruction
runs: the step changes nothing but the environment's own (R240, D16; log 23). -/
def Obligations.HaltWaits : Prop :=
  ∀ s : State, s.halted = true → NothingAccepted s → step s = .next s.afterBus

/-- The reset input, in any state, the HALT mode too: pc 00000000h, PSW 00000020h, ECR 00000000h, r0 zero, not halted; memory and the
map are kept (R250; D18, log 22). -/
def Obligations.ResetInput : Prop :=
  ∀ s : State, s.nextInput.reset = true →
    ∃ t, step s = .next t ∧ t.pc = 0x000000#24 ∧ t.psw = 0x20#8 ∧ t.fecc = 0x0000#16 ∧ t.eicc = 0x0000#16 ∧
      t.reg 0 = 0#32 ∧ t.halted = false ∧ t.mem = s.afterBus.mem ∧ t.product = s.product ∧ t.inputs = s.inputs.tail ∧
      t.events = s.events

/-- Other bus agents write nothing but bytes of EXTERNAL_RANGES outside ROM and RAM, and no register (D7; log 15). -/
def Obligations.BusWritesReachExternalOnly : Prop :=
  ∀ (s : State) (a : Nat),
    (inRom s.product a = true ∨ inRam s.product a = true ∨ inExternal s.product a = false →
      Memory.read s.afterBus.mem a = Memory.read s.mem a) ∧
    s.afterBus = { s with inputs := s.inputs.tail, mem := s.afterBus.mem }

/-- A step with nothing accepted and the core not halted runs the decoded instruction, on the state with this boundary's input taken
up (R83, R216, R217). -/
def Obligations.StepRunsDecodedInstruction : Prop :=
  ∀ (s : State) (i : Instr), NothingAccepted s → s.halted = false → DecodesTo s.afterBus i → step s = exec i s.afterBus

/-- The bytes fetched are those of memory from the pc up, two or four as the first half-word says; where four readable bytes
stand there below the end of program space the fetch answers (R41, R45, R61; D2, logs 7, 8). -/
def Obligations.FetchReadsMemory : Prop :=
  ∀ s : State,
    (∀ bytes, s.fetchBytes = .ok bytes →
      bytes.length = (if isLong (Memory.read s.mem (s.pc.toNat + 1) ++ Memory.read s.mem s.pc.toNat) then 4 else 2) ∧
        ∀ j, j < bytes.length → bytes[j]? = some (Memory.read s.mem (s.pc.toNat + j))) ∧
    ((∀ j, j < 4 → readable s.product (s.pc.toNat + j) = true) → s.pc.toNat + 2 < 16777216 →
      ∃ bytes, s.fetchBytes = .ok bytes)

/-- A step that cannot fetch an instruction stops by name: an unrecognised code, a non-zero RFU bit and a 32-bit instruction that
starts at 00FFFFFEh are refused; a first half-word with a byte outside every range faults, and so does the second half-word of a
32-bit instruction, each at that half-word's address (R80, R81; D3, D11, D12; logs 4, 9, 19). -/
def Obligations.StepRefusesUndefinedCodes : Prop :=
  ∀ (s : State) (bytes : List Byte), NothingAccepted s → s.halted = false →
    (s.afterBus.fetchBytes = .ok bytes → decode bytes = .error .unrecognised →
      step s = .refused (.unrecognisedCode s.pc)) ∧
    (s.afterBus.fetchBytes = .ok bytes → decode bytes = .error .reservedField →
      step s = .refused (.reservedField s.pc)) ∧
    (s.pc = 0xFFFFFE#24 → readable s.product 16777214 = true → readable s.product 16777215 = true →
      isLong (Memory.read s.afterBus.mem 16777215 ++ Memory.read s.afterBus.mem 16777214) = true →
      step s = .refused .fetchStraddlesTop) ∧
    ((∃ j, j < 2 ∧ readable s.product (s.pc.toNat + j) = false) → step s = .fault (.unmappedFetch s.pc)) ∧
    ((∀ j, j < 2 → readable s.product (s.pc.toNat + j) = true) →
      isLong (Memory.read s.afterBus.mem (s.pc.toNat + 1) ++ Memory.read s.afterBus.mem s.pc.toNat) = true →
      s.pc.toNat + 2 < 16777216 → (∃ j, j < 2 ∧ readable s.product (s.pc.toNat + 2 + j) = false) →
      step s = .fault (.unmappedFetch (s.pc + 2#24)))

/-- Table 5-10 has a row for every instruction but LDSR of a register it may not write and STSR of a reserved one; its bytes are the
instruction's length and that of its encoding; an instruction that completes and transfers no control moves the pc past just
these bytes, and JARL's link and an exception's restore PC are the address past them (R15, R61, R174, R224, R225, R270). -/
def Obligations.ClockTableBytesAreLengths : Prop :=
  ∀ (i : Instr) (s : State),
    (tableClocks s.psw i = none ↔
      (∃ n, LoadsSysReg i n ∧ (n.toNat = 4 ∨ 6 ≤ n.toNat)) ∨ (∃ n reg2, i = .stsr n reg2 ∧ 6 ≤ n.toNat)) ∧
    ∀ c, tableClocks s.psw i = some c →
      c.bytes = i.length ∧ (encodeBytes i).length = c.bytes ∧
      ∀ t, exec i s = .next t →
        (¬ TransfersControl i s → PastPc c.bytes s t) ∧ (ExceptionInstr i → t.eipc = s.pc + BitVec.ofNat 24 c.bytes) ∧
          ∀ d reg2, i = .jarl d reg2 → Written t reg2 (BitVec.ofNat 32 ((s.pc.toNat + c.bytes) % 16777216))

end ObligationTexts
end

