-- ==== Sys2Proof/Laws/Flags.lean ====
section
/-!
SUPPORT. Reading a flag of the PSW after writing one.
-/

namespace Sys2Proof.Machine

/-- A bit of the PSW after a bit is written. -/
theorem Psw.getLsbD_put (p : Psw) (i j : Nat) (b : Bool) (hj : j < 8) :
    (Psw.put i b p).getLsbD j = if j = i then b else p.getLsbD j := by
  unfold Psw.put
  cases b <;> by_cases h : j = i
  · simp [h]
  · simp [h, hj]
  · subst h; simp [hj]
  · have h' : ¬ i = j := fun e => h e.symm
    simp [h, h']

@[simp] theorem Psw.z_setZ (b : Bool) (p : Psw) : Psw.z (Psw.setZ b p) = b :=
  Psw.getLsbD_put p 0 0 b (by decide)
@[simp] theorem Psw.s_setZ (b : Bool) (p : Psw) : Psw.s (Psw.setZ b p) = Psw.s p :=
  Psw.getLsbD_put p 0 1 b (by decide)
@[simp] theorem Psw.ov_setZ (b : Bool) (p : Psw) : Psw.ov (Psw.setZ b p) = Psw.ov p :=
  Psw.getLsbD_put p 0 2 b (by decide)
@[simp] theorem Psw.cy_setZ (b : Bool) (p : Psw) : Psw.cy (Psw.setZ b p) = Psw.cy p :=
  Psw.getLsbD_put p 0 3 b (by decide)
@[simp] theorem Psw.sat_setZ (b : Bool) (p : Psw) : Psw.sat (Psw.setZ b p) = Psw.sat p :=
  Psw.getLsbD_put p 0 4 b (by decide)
@[simp] theorem Psw.id_setZ (b : Bool) (p : Psw) : Psw.id (Psw.setZ b p) = Psw.id p :=
  Psw.getLsbD_put p 0 5 b (by decide)
@[simp] theorem Psw.ep_setZ (b : Bool) (p : Psw) : Psw.ep (Psw.setZ b p) = Psw.ep p :=
  Psw.getLsbD_put p 0 6 b (by decide)
@[simp] theorem Psw.np_setZ (b : Bool) (p : Psw) : Psw.np (Psw.setZ b p) = Psw.np p :=
  Psw.getLsbD_put p 0 7 b (by decide)

@[simp] theorem Psw.z_setS (b : Bool) (p : Psw) : Psw.z (Psw.setS b p) = Psw.z p :=
  Psw.getLsbD_put p 1 0 b (by decide)
@[simp] theorem Psw.s_setS (b : Bool) (p : Psw) : Psw.s (Psw.setS b p) = b :=
  Psw.getLsbD_put p 1 1 b (by decide)
@[simp] theorem Psw.ov_setS (b : Bool) (p : Psw) : Psw.ov (Psw.setS b p) = Psw.ov p :=
  Psw.getLsbD_put p 1 2 b (by decide)
@[simp] theorem Psw.cy_setS (b : Bool) (p : Psw) : Psw.cy (Psw.setS b p) = Psw.cy p :=
  Psw.getLsbD_put p 1 3 b (by decide)
@[simp] theorem Psw.sat_setS (b : Bool) (p : Psw) : Psw.sat (Psw.setS b p) = Psw.sat p :=
  Psw.getLsbD_put p 1 4 b (by decide)
@[simp] theorem Psw.id_setS (b : Bool) (p : Psw) : Psw.id (Psw.setS b p) = Psw.id p :=
  Psw.getLsbD_put p 1 5 b (by decide)
@[simp] theorem Psw.ep_setS (b : Bool) (p : Psw) : Psw.ep (Psw.setS b p) = Psw.ep p :=
  Psw.getLsbD_put p 1 6 b (by decide)
@[simp] theorem Psw.np_setS (b : Bool) (p : Psw) : Psw.np (Psw.setS b p) = Psw.np p :=
  Psw.getLsbD_put p 1 7 b (by decide)

@[simp] theorem Psw.z_setOv (b : Bool) (p : Psw) : Psw.z (Psw.setOv b p) = Psw.z p :=
  Psw.getLsbD_put p 2 0 b (by decide)
@[simp] theorem Psw.s_setOv (b : Bool) (p : Psw) : Psw.s (Psw.setOv b p) = Psw.s p :=
  Psw.getLsbD_put p 2 1 b (by decide)
@[simp] theorem Psw.ov_setOv (b : Bool) (p : Psw) : Psw.ov (Psw.setOv b p) = b :=
  Psw.getLsbD_put p 2 2 b (by decide)
@[simp] theorem Psw.cy_setOv (b : Bool) (p : Psw) : Psw.cy (Psw.setOv b p) = Psw.cy p :=
  Psw.getLsbD_put p 2 3 b (by decide)
@[simp] theorem Psw.sat_setOv (b : Bool) (p : Psw) : Psw.sat (Psw.setOv b p) = Psw.sat p :=
  Psw.getLsbD_put p 2 4 b (by decide)
@[simp] theorem Psw.id_setOv (b : Bool) (p : Psw) : Psw.id (Psw.setOv b p) = Psw.id p :=
  Psw.getLsbD_put p 2 5 b (by decide)
@[simp] theorem Psw.ep_setOv (b : Bool) (p : Psw) : Psw.ep (Psw.setOv b p) = Psw.ep p :=
  Psw.getLsbD_put p 2 6 b (by decide)
@[simp] theorem Psw.np_setOv (b : Bool) (p : Psw) : Psw.np (Psw.setOv b p) = Psw.np p :=
  Psw.getLsbD_put p 2 7 b (by decide)

@[simp] theorem Psw.z_setCy (b : Bool) (p : Psw) : Psw.z (Psw.setCy b p) = Psw.z p :=
  Psw.getLsbD_put p 3 0 b (by decide)
@[simp] theorem Psw.s_setCy (b : Bool) (p : Psw) : Psw.s (Psw.setCy b p) = Psw.s p :=
  Psw.getLsbD_put p 3 1 b (by decide)
@[simp] theorem Psw.ov_setCy (b : Bool) (p : Psw) : Psw.ov (Psw.setCy b p) = Psw.ov p :=
  Psw.getLsbD_put p 3 2 b (by decide)
@[simp] theorem Psw.cy_setCy (b : Bool) (p : Psw) : Psw.cy (Psw.setCy b p) = b :=
  Psw.getLsbD_put p 3 3 b (by decide)
@[simp] theorem Psw.sat_setCy (b : Bool) (p : Psw) : Psw.sat (Psw.setCy b p) = Psw.sat p :=
  Psw.getLsbD_put p 3 4 b (by decide)
@[simp] theorem Psw.id_setCy (b : Bool) (p : Psw) : Psw.id (Psw.setCy b p) = Psw.id p :=
  Psw.getLsbD_put p 3 5 b (by decide)
@[simp] theorem Psw.ep_setCy (b : Bool) (p : Psw) : Psw.ep (Psw.setCy b p) = Psw.ep p :=
  Psw.getLsbD_put p 3 6 b (by decide)
@[simp] theorem Psw.np_setCy (b : Bool) (p : Psw) : Psw.np (Psw.setCy b p) = Psw.np p :=
  Psw.getLsbD_put p 3 7 b (by decide)

@[simp] theorem Psw.z_setSat (b : Bool) (p : Psw) : Psw.z (Psw.setSat b p) = Psw.z p :=
  Psw.getLsbD_put p 4 0 b (by decide)
@[simp] theorem Psw.s_setSat (b : Bool) (p : Psw) : Psw.s (Psw.setSat b p) = Psw.s p :=
  Psw.getLsbD_put p 4 1 b (by decide)
@[simp] theorem Psw.ov_setSat (b : Bool) (p : Psw) : Psw.ov (Psw.setSat b p) = Psw.ov p :=
  Psw.getLsbD_put p 4 2 b (by decide)
@[simp] theorem Psw.cy_setSat (b : Bool) (p : Psw) : Psw.cy (Psw.setSat b p) = Psw.cy p :=
  Psw.getLsbD_put p 4 3 b (by decide)
@[simp] theorem Psw.sat_setSat (b : Bool) (p : Psw) : Psw.sat (Psw.setSat b p) = b :=
  Psw.getLsbD_put p 4 4 b (by decide)
@[simp] theorem Psw.id_setSat (b : Bool) (p : Psw) : Psw.id (Psw.setSat b p) = Psw.id p :=
  Psw.getLsbD_put p 4 5 b (by decide)
@[simp] theorem Psw.ep_setSat (b : Bool) (p : Psw) : Psw.ep (Psw.setSat b p) = Psw.ep p :=
  Psw.getLsbD_put p 4 6 b (by decide)
@[simp] theorem Psw.np_setSat (b : Bool) (p : Psw) : Psw.np (Psw.setSat b p) = Psw.np p :=
  Psw.getLsbD_put p 4 7 b (by decide)

@[simp] theorem Psw.z_setId (b : Bool) (p : Psw) : Psw.z (Psw.setId b p) = Psw.z p :=
  Psw.getLsbD_put p 5 0 b (by decide)
@[simp] theorem Psw.s_setId (b : Bool) (p : Psw) : Psw.s (Psw.setId b p) = Psw.s p :=
  Psw.getLsbD_put p 5 1 b (by decide)
@[simp] theorem Psw.ov_setId (b : Bool) (p : Psw) : Psw.ov (Psw.setId b p) = Psw.ov p :=
  Psw.getLsbD_put p 5 2 b (by decide)
@[simp] theorem Psw.cy_setId (b : Bool) (p : Psw) : Psw.cy (Psw.setId b p) = Psw.cy p :=
  Psw.getLsbD_put p 5 3 b (by decide)
@[simp] theorem Psw.sat_setId (b : Bool) (p : Psw) : Psw.sat (Psw.setId b p) = Psw.sat p :=
  Psw.getLsbD_put p 5 4 b (by decide)
@[simp] theorem Psw.id_setId (b : Bool) (p : Psw) : Psw.id (Psw.setId b p) = b :=
  Psw.getLsbD_put p 5 5 b (by decide)
@[simp] theorem Psw.ep_setId (b : Bool) (p : Psw) : Psw.ep (Psw.setId b p) = Psw.ep p :=
  Psw.getLsbD_put p 5 6 b (by decide)
@[simp] theorem Psw.np_setId (b : Bool) (p : Psw) : Psw.np (Psw.setId b p) = Psw.np p :=
  Psw.getLsbD_put p 5 7 b (by decide)

@[simp] theorem Psw.z_setEp (b : Bool) (p : Psw) : Psw.z (Psw.setEp b p) = Psw.z p :=
  Psw.getLsbD_put p 6 0 b (by decide)
@[simp] theorem Psw.s_setEp (b : Bool) (p : Psw) : Psw.s (Psw.setEp b p) = Psw.s p :=
  Psw.getLsbD_put p 6 1 b (by decide)
@[simp] theorem Psw.ov_setEp (b : Bool) (p : Psw) : Psw.ov (Psw.setEp b p) = Psw.ov p :=
  Psw.getLsbD_put p 6 2 b (by decide)
@[simp] theorem Psw.cy_setEp (b : Bool) (p : Psw) : Psw.cy (Psw.setEp b p) = Psw.cy p :=
  Psw.getLsbD_put p 6 3 b (by decide)
@[simp] theorem Psw.sat_setEp (b : Bool) (p : Psw) : Psw.sat (Psw.setEp b p) = Psw.sat p :=
  Psw.getLsbD_put p 6 4 b (by decide)
@[simp] theorem Psw.id_setEp (b : Bool) (p : Psw) : Psw.id (Psw.setEp b p) = Psw.id p :=
  Psw.getLsbD_put p 6 5 b (by decide)
@[simp] theorem Psw.ep_setEp (b : Bool) (p : Psw) : Psw.ep (Psw.setEp b p) = b :=
  Psw.getLsbD_put p 6 6 b (by decide)
@[simp] theorem Psw.np_setEp (b : Bool) (p : Psw) : Psw.np (Psw.setEp b p) = Psw.np p :=
  Psw.getLsbD_put p 6 7 b (by decide)

@[simp] theorem Psw.z_setNp (b : Bool) (p : Psw) : Psw.z (Psw.setNp b p) = Psw.z p :=
  Psw.getLsbD_put p 7 0 b (by decide)
@[simp] theorem Psw.s_setNp (b : Bool) (p : Psw) : Psw.s (Psw.setNp b p) = Psw.s p :=
  Psw.getLsbD_put p 7 1 b (by decide)
@[simp] theorem Psw.ov_setNp (b : Bool) (p : Psw) : Psw.ov (Psw.setNp b p) = Psw.ov p :=
  Psw.getLsbD_put p 7 2 b (by decide)
@[simp] theorem Psw.cy_setNp (b : Bool) (p : Psw) : Psw.cy (Psw.setNp b p) = Psw.cy p :=
  Psw.getLsbD_put p 7 3 b (by decide)
@[simp] theorem Psw.sat_setNp (b : Bool) (p : Psw) : Psw.sat (Psw.setNp b p) = Psw.sat p :=
  Psw.getLsbD_put p 7 4 b (by decide)
@[simp] theorem Psw.id_setNp (b : Bool) (p : Psw) : Psw.id (Psw.setNp b p) = Psw.id p :=
  Psw.getLsbD_put p 7 5 b (by decide)
@[simp] theorem Psw.ep_setNp (b : Bool) (p : Psw) : Psw.ep (Psw.setNp b p) = Psw.ep p :=
  Psw.getLsbD_put p 7 6 b (by decide)
@[simp] theorem Psw.np_setNp (b : Bool) (p : Psw) : Psw.np (Psw.setNp b p) = b :=
  Psw.getLsbD_put p 7 7 b (by decide)

@[simp] theorem Psw.z_setOvSZ (ov s z : Bool) (p : Psw) : Psw.z (Psw.setOvSZ ov s z p) = z := by
  simp [Psw.setOvSZ]
@[simp] theorem Psw.s_setOvSZ (ov s z : Bool) (p : Psw) : Psw.s (Psw.setOvSZ ov s z p) = s := by
  simp [Psw.setOvSZ]
@[simp] theorem Psw.ov_setOvSZ (ov s z : Bool) (p : Psw) : Psw.ov (Psw.setOvSZ ov s z p) = ov := by
  simp [Psw.setOvSZ]
@[simp] theorem Psw.cy_setOvSZ (ov s z : Bool) (p : Psw) : Psw.cy (Psw.setOvSZ ov s z p) = Psw.cy p := by
  simp [Psw.setOvSZ]
@[simp] theorem Psw.sat_setOvSZ (ov s z : Bool) (p : Psw) : Psw.sat (Psw.setOvSZ ov s z p) = Psw.sat p := by
  simp [Psw.setOvSZ]
@[simp] theorem Psw.id_setOvSZ (ov s z : Bool) (p : Psw) : Psw.id (Psw.setOvSZ ov s z p) = Psw.id p := by
  simp [Psw.setOvSZ]
@[simp] theorem Psw.ep_setOvSZ (ov s z : Bool) (p : Psw) : Psw.ep (Psw.setOvSZ ov s z p) = Psw.ep p := by
  simp [Psw.setOvSZ]
@[simp] theorem Psw.np_setOvSZ (ov s z : Bool) (p : Psw) : Psw.np (Psw.setOvSZ ov s z p) = Psw.np p := by
  simp [Psw.setOvSZ]

@[simp] theorem Psw.z_setArith (cy ov s z : Bool) (p : Psw) : Psw.z (Psw.setArith cy ov s z p) = z := by
  simp [Psw.setArith]
@[simp] theorem Psw.s_setArith (cy ov s z : Bool) (p : Psw) : Psw.s (Psw.setArith cy ov s z p) = s := by
  simp [Psw.setArith]
@[simp] theorem Psw.ov_setArith (cy ov s z : Bool) (p : Psw) : Psw.ov (Psw.setArith cy ov s z p) = ov := by
  simp [Psw.setArith]
@[simp] theorem Psw.cy_setArith (cy ov s z : Bool) (p : Psw) : Psw.cy (Psw.setArith cy ov s z p) = cy := by
  simp [Psw.setArith]
@[simp] theorem Psw.sat_setArith (cy ov s z : Bool) (p : Psw) : Psw.sat (Psw.setArith cy ov s z p) = Psw.sat p := by
  simp [Psw.setArith]
@[simp] theorem Psw.id_setArith (cy ov s z : Bool) (p : Psw) : Psw.id (Psw.setArith cy ov s z p) = Psw.id p := by
  simp [Psw.setArith]
@[simp] theorem Psw.ep_setArith (cy ov s z : Bool) (p : Psw) : Psw.ep (Psw.setArith cy ov s z p) = Psw.ep p := by
  simp [Psw.setArith]
@[simp] theorem Psw.np_setArith (cy ov s z : Bool) (p : Psw) : Psw.np (Psw.setArith cy ov s z p) = Psw.np p := by
  simp [Psw.setArith]

end Sys2Proof.Machine
end

