-- ==== Sys2Proof/Laws/State.lean ====
section
/-!
SUPPORT. What each update of the state writes and what it keeps: one lemma a field and an update.
-/

namespace Sys2Proof.Machine

section Updates

variable (s : State)

/-! ### setReg -/

@[simp] theorem State.setReg_gpr (r : Reg) (v : Word) : (s.setReg r v).gpr = if r = 0 then s.gpr else s.gpr.set r.val v := rfl
@[simp] theorem State.setReg_pc (r : Reg) (v : Word) : (s.setReg r v).pc = s.pc := rfl
@[simp] theorem State.setReg_psw (r : Reg) (v : Word) : (s.setReg r v).psw = s.psw := rfl
@[simp] theorem State.setReg_eipc (r : Reg) (v : Word) : (s.setReg r v).eipc = s.eipc := rfl
@[simp] theorem State.setReg_eipsw (r : Reg) (v : Word) : (s.setReg r v).eipsw = s.eipsw := rfl
@[simp] theorem State.setReg_fepc (r : Reg) (v : Word) : (s.setReg r v).fepc = s.fepc := rfl
@[simp] theorem State.setReg_fepsw (r : Reg) (v : Word) : (s.setReg r v).fepsw = s.fepsw := rfl
@[simp] theorem State.setReg_fecc (r : Reg) (v : Word) : (s.setReg r v).fecc = s.fecc := rfl
@[simp] theorem State.setReg_eicc (r : Reg) (v : Word) : (s.setReg r v).eicc = s.eicc := rfl
@[simp] theorem State.setReg_halted (r : Reg) (v : Word) : (s.setReg r v).halted = s.halted := rfl
@[simp] theorem State.setReg_inputs (r : Reg) (v : Word) : (s.setReg r v).inputs = s.inputs := rfl
@[simp] theorem State.setReg_mem (r : Reg) (v : Word) : (s.setReg r v).mem = s.mem := rfl
@[simp] theorem State.setReg_product (r : Reg) (v : Word) : (s.setReg r v).product = s.product := rfl
@[simp] theorem State.setReg_freeCount (r : Reg) (v : Word) : (s.setReg r v).freeCount = s.freeCount := rfl
@[simp] theorem State.setReg_events (r : Reg) (v : Word) : (s.setReg r v).events = s.events := rfl

/-! ### setPc -/

@[simp] theorem State.setPc_gpr (t : PcVal) : (s.setPc t).gpr = s.gpr := rfl
@[simp] theorem State.setPc_pc (t : PcVal) : (s.setPc t).pc = t &&& 0xFFFFFE#24 := rfl
@[simp] theorem State.setPc_psw (t : PcVal) : (s.setPc t).psw = s.psw := rfl
@[simp] theorem State.setPc_eipc (t : PcVal) : (s.setPc t).eipc = s.eipc := rfl
@[simp] theorem State.setPc_eipsw (t : PcVal) : (s.setPc t).eipsw = s.eipsw := rfl
@[simp] theorem State.setPc_fepc (t : PcVal) : (s.setPc t).fepc = s.fepc := rfl
@[simp] theorem State.setPc_fepsw (t : PcVal) : (s.setPc t).fepsw = s.fepsw := rfl
@[simp] theorem State.setPc_fecc (t : PcVal) : (s.setPc t).fecc = s.fecc := rfl
@[simp] theorem State.setPc_eicc (t : PcVal) : (s.setPc t).eicc = s.eicc := rfl
@[simp] theorem State.setPc_halted (t : PcVal) : (s.setPc t).halted = s.halted := rfl
@[simp] theorem State.setPc_inputs (t : PcVal) : (s.setPc t).inputs = s.inputs := rfl
@[simp] theorem State.setPc_mem (t : PcVal) : (s.setPc t).mem = s.mem := rfl
@[simp] theorem State.setPc_product (t : PcVal) : (s.setPc t).product = s.product := rfl
@[simp] theorem State.setPc_freeCount (t : PcVal) : (s.setPc t).freeCount = s.freeCount := rfl
@[simp] theorem State.setPc_events (t : PcVal) : (s.setPc t).events = s.events := rfl
@[simp] theorem State.setPc_reg (t : PcVal) (q : Reg) : (s.setPc t).reg q = s.reg q := rfl

/-! ### advance -/

@[simp] theorem State.advance_gpr (n : Nat) : (s.advance n).gpr = s.gpr := rfl
@[simp] theorem State.advance_pc (n : Nat) : (s.advance n).pc = (s.pc + BitVec.ofNat 24 n) &&& 0xFFFFFE#24 := rfl
@[simp] theorem State.advance_psw (n : Nat) : (s.advance n).psw = s.psw := rfl
@[simp] theorem State.advance_eipc (n : Nat) : (s.advance n).eipc = s.eipc := rfl
@[simp] theorem State.advance_eipsw (n : Nat) : (s.advance n).eipsw = s.eipsw := rfl
@[simp] theorem State.advance_fepc (n : Nat) : (s.advance n).fepc = s.fepc := rfl
@[simp] theorem State.advance_fepsw (n : Nat) : (s.advance n).fepsw = s.fepsw := rfl
@[simp] theorem State.advance_fecc (n : Nat) : (s.advance n).fecc = s.fecc := rfl
@[simp] theorem State.advance_eicc (n : Nat) : (s.advance n).eicc = s.eicc := rfl
@[simp] theorem State.advance_halted (n : Nat) : (s.advance n).halted = s.halted := rfl
@[simp] theorem State.advance_inputs (n : Nat) : (s.advance n).inputs = s.inputs := rfl
@[simp] theorem State.advance_mem (n : Nat) : (s.advance n).mem = s.mem := rfl
@[simp] theorem State.advance_product (n : Nat) : (s.advance n).product = s.product := rfl
@[simp] theorem State.advance_freeCount (n : Nat) : (s.advance n).freeCount = s.freeCount := rfl
@[simp] theorem State.advance_events (n : Nat) : (s.advance n).events = s.events := rfl
@[simp] theorem State.advance_reg (n : Nat) (q : Reg) : (s.advance n).reg q = s.reg q := rfl

/-! ### setPsw -/

@[simp] theorem State.setPsw_gpr (p : Psw) : (s.setPsw p).gpr = s.gpr := rfl
@[simp] theorem State.setPsw_pc (p : Psw) : (s.setPsw p).pc = s.pc := rfl
@[simp] theorem State.setPsw_psw (p : Psw) : (s.setPsw p).psw = p := rfl
@[simp] theorem State.setPsw_eipc (p : Psw) : (s.setPsw p).eipc = s.eipc := rfl
@[simp] theorem State.setPsw_eipsw (p : Psw) : (s.setPsw p).eipsw = s.eipsw := rfl
@[simp] theorem State.setPsw_fepc (p : Psw) : (s.setPsw p).fepc = s.fepc := rfl
@[simp] theorem State.setPsw_fepsw (p : Psw) : (s.setPsw p).fepsw = s.fepsw := rfl
@[simp] theorem State.setPsw_fecc (p : Psw) : (s.setPsw p).fecc = s.fecc := rfl
@[simp] theorem State.setPsw_eicc (p : Psw) : (s.setPsw p).eicc = s.eicc := rfl
@[simp] theorem State.setPsw_halted (p : Psw) : (s.setPsw p).halted = s.halted := rfl
@[simp] theorem State.setPsw_inputs (p : Psw) : (s.setPsw p).inputs = s.inputs := rfl
@[simp] theorem State.setPsw_mem (p : Psw) : (s.setPsw p).mem = s.mem := rfl
@[simp] theorem State.setPsw_product (p : Psw) : (s.setPsw p).product = s.product := rfl
@[simp] theorem State.setPsw_freeCount (p : Psw) : (s.setPsw p).freeCount = s.freeCount := rfl
@[simp] theorem State.setPsw_events (p : Psw) : (s.setPsw p).events = s.events := rfl
@[simp] theorem State.setPsw_reg (p : Psw) (q : Reg) : (s.setPsw p).reg q = s.reg q := rfl

/-! ### setArith -/

@[simp] theorem State.setArith_gpr (o : Alu) : (s.setArith o).gpr = s.gpr := rfl
@[simp] theorem State.setArith_pc (o : Alu) : (s.setArith o).pc = s.pc := rfl
@[simp] theorem State.setArith_psw (o : Alu) : (s.setArith o).psw = Psw.setArith o.cy o.ov o.s o.z s.psw := rfl
@[simp] theorem State.setArith_eipc (o : Alu) : (s.setArith o).eipc = s.eipc := rfl
@[simp] theorem State.setArith_eipsw (o : Alu) : (s.setArith o).eipsw = s.eipsw := rfl
@[simp] theorem State.setArith_fepc (o : Alu) : (s.setArith o).fepc = s.fepc := rfl
@[simp] theorem State.setArith_fepsw (o : Alu) : (s.setArith o).fepsw = s.fepsw := rfl
@[simp] theorem State.setArith_fecc (o : Alu) : (s.setArith o).fecc = s.fecc := rfl
@[simp] theorem State.setArith_eicc (o : Alu) : (s.setArith o).eicc = s.eicc := rfl
@[simp] theorem State.setArith_halted (o : Alu) : (s.setArith o).halted = s.halted := rfl
@[simp] theorem State.setArith_inputs (o : Alu) : (s.setArith o).inputs = s.inputs := rfl
@[simp] theorem State.setArith_mem (o : Alu) : (s.setArith o).mem = s.mem := rfl
@[simp] theorem State.setArith_product (o : Alu) : (s.setArith o).product = s.product := rfl
@[simp] theorem State.setArith_freeCount (o : Alu) : (s.setArith o).freeCount = s.freeCount := rfl
@[simp] theorem State.setArith_events (o : Alu) : (s.setArith o).events = s.events := rfl
@[simp] theorem State.setArith_reg (o : Alu) (q : Reg) : (s.setArith o).reg q = s.reg q := rfl

/-! ### setSatIf -/

@[simp] theorem State.setSatIf_gpr (ov : Bool) : (s.setSatIf ov).gpr = s.gpr := rfl
@[simp] theorem State.setSatIf_pc (ov : Bool) : (s.setSatIf ov).pc = s.pc := rfl
@[simp] theorem State.setSatIf_psw (ov : Bool) : (s.setSatIf ov).psw = Psw.setSat (Psw.sat s.psw || ov) s.psw := rfl
@[simp] theorem State.setSatIf_eipc (ov : Bool) : (s.setSatIf ov).eipc = s.eipc := rfl
@[simp] theorem State.setSatIf_eipsw (ov : Bool) : (s.setSatIf ov).eipsw = s.eipsw := rfl
@[simp] theorem State.setSatIf_fepc (ov : Bool) : (s.setSatIf ov).fepc = s.fepc := rfl
@[simp] theorem State.setSatIf_fepsw (ov : Bool) : (s.setSatIf ov).fepsw = s.fepsw := rfl
@[simp] theorem State.setSatIf_fecc (ov : Bool) : (s.setSatIf ov).fecc = s.fecc := rfl
@[simp] theorem State.setSatIf_eicc (ov : Bool) : (s.setSatIf ov).eicc = s.eicc := rfl
@[simp] theorem State.setSatIf_halted (ov : Bool) : (s.setSatIf ov).halted = s.halted := rfl
@[simp] theorem State.setSatIf_inputs (ov : Bool) : (s.setSatIf ov).inputs = s.inputs := rfl
@[simp] theorem State.setSatIf_mem (ov : Bool) : (s.setSatIf ov).mem = s.mem := rfl
@[simp] theorem State.setSatIf_product (ov : Bool) : (s.setSatIf ov).product = s.product := rfl
@[simp] theorem State.setSatIf_freeCount (ov : Bool) : (s.setSatIf ov).freeCount = s.freeCount := rfl
@[simp] theorem State.setSatIf_events (ov : Bool) : (s.setSatIf ov).events = s.events := rfl
@[simp] theorem State.setSatIf_reg (ov : Bool) (q : Reg) : (s.setSatIf ov).reg q = s.reg q := rfl

/-! ### setLogic -/

@[simp] theorem State.setLogic_gpr (v : Word) : (s.setLogic v).gpr = s.gpr := rfl
@[simp] theorem State.setLogic_pc (v : Word) : (s.setLogic v).pc = s.pc := rfl
@[simp] theorem State.setLogic_psw (v : Word) : (s.setLogic v).psw = Psw.setOvSZ false (signFlag v) (zeroFlag v) s.psw := rfl
@[simp] theorem State.setLogic_eipc (v : Word) : (s.setLogic v).eipc = s.eipc := rfl
@[simp] theorem State.setLogic_eipsw (v : Word) : (s.setLogic v).eipsw = s.eipsw := rfl
@[simp] theorem State.setLogic_fepc (v : Word) : (s.setLogic v).fepc = s.fepc := rfl
@[simp] theorem State.setLogic_fepsw (v : Word) : (s.setLogic v).fepsw = s.fepsw := rfl
@[simp] theorem State.setLogic_fecc (v : Word) : (s.setLogic v).fecc = s.fecc := rfl
@[simp] theorem State.setLogic_eicc (v : Word) : (s.setLogic v).eicc = s.eicc := rfl
@[simp] theorem State.setLogic_halted (v : Word) : (s.setLogic v).halted = s.halted := rfl
@[simp] theorem State.setLogic_inputs (v : Word) : (s.setLogic v).inputs = s.inputs := rfl
@[simp] theorem State.setLogic_mem (v : Word) : (s.setLogic v).mem = s.mem := rfl
@[simp] theorem State.setLogic_product (v : Word) : (s.setLogic v).product = s.product := rfl
@[simp] theorem State.setLogic_freeCount (v : Word) : (s.setLogic v).freeCount = s.freeCount := rfl
@[simp] theorem State.setLogic_events (v : Word) : (s.setLogic v).events = s.events := rfl
@[simp] theorem State.setLogic_reg (v : Word) (q : Reg) : (s.setLogic v).reg q = s.reg q := rfl

/-! ### setMem -/

@[simp] theorem State.setMem_gpr (m : List Host.Cell) : (s.setMem m).gpr = s.gpr := rfl
@[simp] theorem State.setMem_pc (m : List Host.Cell) : (s.setMem m).pc = s.pc := rfl
@[simp] theorem State.setMem_psw (m : List Host.Cell) : (s.setMem m).psw = s.psw := rfl
@[simp] theorem State.setMem_eipc (m : List Host.Cell) : (s.setMem m).eipc = s.eipc := rfl
@[simp] theorem State.setMem_eipsw (m : List Host.Cell) : (s.setMem m).eipsw = s.eipsw := rfl
@[simp] theorem State.setMem_fepc (m : List Host.Cell) : (s.setMem m).fepc = s.fepc := rfl
@[simp] theorem State.setMem_fepsw (m : List Host.Cell) : (s.setMem m).fepsw = s.fepsw := rfl
@[simp] theorem State.setMem_fecc (m : List Host.Cell) : (s.setMem m).fecc = s.fecc := rfl
@[simp] theorem State.setMem_eicc (m : List Host.Cell) : (s.setMem m).eicc = s.eicc := rfl
@[simp] theorem State.setMem_halted (m : List Host.Cell) : (s.setMem m).halted = s.halted := rfl
@[simp] theorem State.setMem_inputs (m : List Host.Cell) : (s.setMem m).inputs = s.inputs := rfl
@[simp] theorem State.setMem_mem (m : List Host.Cell) : (s.setMem m).mem = m := rfl
@[simp] theorem State.setMem_product (m : List Host.Cell) : (s.setMem m).product = s.product := rfl
@[simp] theorem State.setMem_freeCount (m : List Host.Cell) : (s.setMem m).freeCount = s.freeCount := rfl
@[simp] theorem State.setMem_events (m : List Host.Cell) : (s.setMem m).events = s.events := rfl
@[simp] theorem State.setMem_reg (m : List Host.Cell) (q : Reg) : (s.setMem m).reg q = s.reg q := rfl

/-! ### emit -/

@[simp] theorem State.emit_gpr (e : Event) : (s.emit e).gpr = s.gpr := rfl
@[simp] theorem State.emit_pc (e : Event) : (s.emit e).pc = s.pc := rfl
@[simp] theorem State.emit_psw (e : Event) : (s.emit e).psw = s.psw := rfl
@[simp] theorem State.emit_eipc (e : Event) : (s.emit e).eipc = s.eipc := rfl
@[simp] theorem State.emit_eipsw (e : Event) : (s.emit e).eipsw = s.eipsw := rfl
@[simp] theorem State.emit_fepc (e : Event) : (s.emit e).fepc = s.fepc := rfl
@[simp] theorem State.emit_fepsw (e : Event) : (s.emit e).fepsw = s.fepsw := rfl
@[simp] theorem State.emit_fecc (e : Event) : (s.emit e).fecc = s.fecc := rfl
@[simp] theorem State.emit_eicc (e : Event) : (s.emit e).eicc = s.eicc := rfl
@[simp] theorem State.emit_halted (e : Event) : (s.emit e).halted = s.halted := rfl
@[simp] theorem State.emit_inputs (e : Event) : (s.emit e).inputs = s.inputs := rfl
@[simp] theorem State.emit_mem (e : Event) : (s.emit e).mem = s.mem := rfl
@[simp] theorem State.emit_product (e : Event) : (s.emit e).product = s.product := rfl
@[simp] theorem State.emit_freeCount (e : Event) : (s.emit e).freeCount = s.freeCount := rfl
@[simp] theorem State.emit_events (e : Event) : (s.emit e).events = e :: s.events := rfl
@[simp] theorem State.emit_reg (e : Event) (q : Reg) : (s.emit e).reg q = s.reg q := rfl

/-! ### tick -/

@[simp] theorem State.tick_gpr : (s.tick).gpr = s.gpr := rfl
@[simp] theorem State.tick_pc : (s.tick).pc = s.pc := rfl
@[simp] theorem State.tick_psw : (s.tick).psw = s.psw := rfl
@[simp] theorem State.tick_eipc : (s.tick).eipc = s.eipc := rfl
@[simp] theorem State.tick_eipsw : (s.tick).eipsw = s.eipsw := rfl
@[simp] theorem State.tick_fepc : (s.tick).fepc = s.fepc := rfl
@[simp] theorem State.tick_fepsw : (s.tick).fepsw = s.fepsw := rfl
@[simp] theorem State.tick_fecc : (s.tick).fecc = s.fecc := rfl
@[simp] theorem State.tick_eicc : (s.tick).eicc = s.eicc := rfl
@[simp] theorem State.tick_halted : (s.tick).halted = s.halted := rfl
@[simp] theorem State.tick_inputs : (s.tick).inputs = s.inputs := rfl
@[simp] theorem State.tick_mem : (s.tick).mem = s.mem := rfl
@[simp] theorem State.tick_product : (s.tick).product = s.product := rfl
@[simp] theorem State.tick_freeCount : (s.tick).freeCount = s.freeCount + 1 := rfl
@[simp] theorem State.tick_events : (s.tick).events = s.events := rfl
@[simp] theorem State.tick_reg (q : Reg) : (s.tick).reg q = s.reg q := rfl

/-! ### setHalted -/

@[simp] theorem State.setHalted_gpr (b : Bool) : (s.setHalted b).gpr = s.gpr := rfl
@[simp] theorem State.setHalted_pc (b : Bool) : (s.setHalted b).pc = s.pc := rfl
@[simp] theorem State.setHalted_psw (b : Bool) : (s.setHalted b).psw = s.psw := rfl
@[simp] theorem State.setHalted_eipc (b : Bool) : (s.setHalted b).eipc = s.eipc := rfl
@[simp] theorem State.setHalted_eipsw (b : Bool) : (s.setHalted b).eipsw = s.eipsw := rfl
@[simp] theorem State.setHalted_fepc (b : Bool) : (s.setHalted b).fepc = s.fepc := rfl
@[simp] theorem State.setHalted_fepsw (b : Bool) : (s.setHalted b).fepsw = s.fepsw := rfl
@[simp] theorem State.setHalted_fecc (b : Bool) : (s.setHalted b).fecc = s.fecc := rfl
@[simp] theorem State.setHalted_eicc (b : Bool) : (s.setHalted b).eicc = s.eicc := rfl
@[simp] theorem State.setHalted_halted (b : Bool) : (s.setHalted b).halted = b := rfl
@[simp] theorem State.setHalted_inputs (b : Bool) : (s.setHalted b).inputs = s.inputs := rfl
@[simp] theorem State.setHalted_mem (b : Bool) : (s.setHalted b).mem = s.mem := rfl
@[simp] theorem State.setHalted_product (b : Bool) : (s.setHalted b).product = s.product := rfl
@[simp] theorem State.setHalted_freeCount (b : Bool) : (s.setHalted b).freeCount = s.freeCount := rfl
@[simp] theorem State.setHalted_events (b : Bool) : (s.setHalted b).events = s.events := rfl
@[simp] theorem State.setHalted_reg (b : Bool) (q : Reg) : (s.setHalted b).reg q = s.reg q := rfl

/-! ### dropInput -/

@[simp] theorem State.dropInput_gpr : (s.dropInput).gpr = s.gpr := rfl
@[simp] theorem State.dropInput_pc : (s.dropInput).pc = s.pc := rfl
@[simp] theorem State.dropInput_psw : (s.dropInput).psw = s.psw := rfl
@[simp] theorem State.dropInput_eipc : (s.dropInput).eipc = s.eipc := rfl
@[simp] theorem State.dropInput_eipsw : (s.dropInput).eipsw = s.eipsw := rfl
@[simp] theorem State.dropInput_fepc : (s.dropInput).fepc = s.fepc := rfl
@[simp] theorem State.dropInput_fepsw : (s.dropInput).fepsw = s.fepsw := rfl
@[simp] theorem State.dropInput_fecc : (s.dropInput).fecc = s.fecc := rfl
@[simp] theorem State.dropInput_eicc : (s.dropInput).eicc = s.eicc := rfl
@[simp] theorem State.dropInput_halted : (s.dropInput).halted = s.halted := rfl
@[simp] theorem State.dropInput_inputs : (s.dropInput).inputs = s.inputs.tail := rfl
@[simp] theorem State.dropInput_mem : (s.dropInput).mem = s.mem := rfl
@[simp] theorem State.dropInput_product : (s.dropInput).product = s.product := rfl
@[simp] theorem State.dropInput_freeCount : (s.dropInput).freeCount = s.freeCount := rfl
@[simp] theorem State.dropInput_events : (s.dropInput).events = s.events := rfl
@[simp] theorem State.dropInput_reg (q : Reg) : (s.dropInput).reg q = s.reg q := rfl

/-! ### enter -/

@[simp] theorem State.enter_gpr (e : Entry) : (s.enter e).gpr = s.gpr := rfl
@[simp] theorem State.enter_pc (e : Entry) : (s.enter e).pc = e.handler &&& 0xFFFFFE#24 := rfl
@[simp] theorem State.enter_psw (e : Entry) : (s.enter e).psw = Psw.setNp (Psw.np s.psw || e.bank = .fe) (Psw.setEp e.exception (Psw.setId true s.psw)) := rfl
@[simp] theorem State.enter_eipc (e : Entry) : (s.enter e).eipc = if e.bank = .ei then e.restore else s.eipc := rfl
@[simp] theorem State.enter_eipsw (e : Entry) : (s.enter e).eipsw = if e.bank = .ei then s.psw else s.eipsw := rfl
@[simp] theorem State.enter_fepc (e : Entry) : (s.enter e).fepc = if e.bank = .fe then e.restore else s.fepc := rfl
@[simp] theorem State.enter_fepsw (e : Entry) : (s.enter e).fepsw = if e.bank = .fe then s.psw else s.fepsw := rfl
@[simp] theorem State.enter_fecc (e : Entry) : (s.enter e).fecc = if e.bank = .fe then e.code else s.fecc := rfl
@[simp] theorem State.enter_eicc (e : Entry) : (s.enter e).eicc = if e.bank = .ei then e.code else s.eicc := rfl
@[simp] theorem State.enter_halted (e : Entry) : (s.enter e).halted = s.halted := rfl
@[simp] theorem State.enter_inputs (e : Entry) : (s.enter e).inputs = s.inputs := rfl
@[simp] theorem State.enter_mem (e : Entry) : (s.enter e).mem = s.mem := rfl
@[simp] theorem State.enter_product (e : Entry) : (s.enter e).product = s.product := rfl
@[simp] theorem State.enter_freeCount (e : Entry) : (s.enter e).freeCount = s.freeCount := rfl
@[simp] theorem State.enter_events (e : Entry) : (s.enter e).events = s.events := rfl
@[simp] theorem State.enter_reg (e : Entry) (q : Reg) : (s.enter e).reg q = s.reg q := rfl

/-! ### takeReset -/

@[simp] theorem State.takeReset_pc : s.takeReset.pc = 0x000000#24 := by simp only [State.takeReset, State.tick]
@[simp] theorem State.takeReset_psw : s.takeReset.psw = 0x20#8 := by simp only [State.takeReset, State.tick]
@[simp] theorem State.takeReset_fecc : s.takeReset.fecc = 0x0000#16 := by simp only [State.takeReset, State.tick]
@[simp] theorem State.takeReset_eicc : s.takeReset.eicc = 0x0000#16 := by simp only [State.takeReset, State.tick]
@[simp] theorem State.takeReset_halted : s.takeReset.halted = false := by simp only [State.takeReset, State.tick]
@[simp] theorem State.takeReset_inputs : s.takeReset.inputs = s.inputs := by simp only [State.takeReset, State.tick]
@[simp] theorem State.takeReset_mem : s.takeReset.mem = s.mem := by simp only [State.takeReset, State.tick]
@[simp] theorem State.takeReset_product : s.takeReset.product = s.product := by simp only [State.takeReset, State.tick]
@[simp] theorem State.takeReset_freeCount : s.takeReset.freeCount = s.freeCount + 1 := by simp only [State.takeReset, State.tick]
@[simp] theorem State.takeReset_events : s.takeReset.events = s.events := by simp only [State.takeReset, State.tick]

/-- The cell of r0 after a reset (R30). -/
@[simp] theorem State.takeReset_cell_zero : s.takeReset.gpr[0] = 0#32 := by
  simp [State.takeReset, State.tick]

/-! ### leave -/

@[simp] theorem State.leave_gpr : s.leave.gpr = s.gpr := by unfold State.leave; split <;> rfl
@[simp] theorem State.leave_eipc : s.leave.eipc = s.eipc := by unfold State.leave; split <;> rfl
@[simp] theorem State.leave_eipsw : s.leave.eipsw = s.eipsw := by unfold State.leave; split <;> rfl
@[simp] theorem State.leave_fepc : s.leave.fepc = s.fepc := by unfold State.leave; split <;> rfl
@[simp] theorem State.leave_fepsw : s.leave.fepsw = s.fepsw := by unfold State.leave; split <;> rfl
@[simp] theorem State.leave_fecc : s.leave.fecc = s.fecc := by unfold State.leave; split <;> rfl
@[simp] theorem State.leave_eicc : s.leave.eicc = s.eicc := by unfold State.leave; split <;> rfl
@[simp] theorem State.leave_halted : s.leave.halted = s.halted := by unfold State.leave; split <;> rfl
@[simp] theorem State.leave_inputs : s.leave.inputs = s.inputs := by unfold State.leave; split <;> rfl
@[simp] theorem State.leave_mem : s.leave.mem = s.mem := by unfold State.leave; split <;> rfl
@[simp] theorem State.leave_product : s.leave.product = s.product := by unfold State.leave; split <;> rfl
@[simp] theorem State.leave_freeCount : s.leave.freeCount = s.freeCount := by unfold State.leave; split <;> rfl
@[simp] theorem State.leave_events : s.leave.events = s.events := by unfold State.leave; split <;> rfl
@[simp] theorem State.leave_reg (q : Reg) : s.leave.reg q = s.reg q := by unfold State.leave; split <;> rfl

/-- The PSW after a return (R194). -/
theorem State.leave_psw : s.leave.psw = if !Psw.ep s.psw && Psw.np s.psw then s.fepsw else s.eipsw := by
  unfold State.leave returnBank
  cases h : (!Psw.ep s.psw && Psw.np s.psw) <;> simp

/-- The pc after a return, bit 0 dropped (R194). -/
theorem State.leave_pc :
    s.leave.pc = (if !Psw.ep s.psw && Psw.np s.psw then s.fepc else s.eipc) &&& 0xFFFFFE#24 := by
  unfold State.leave returnBank
  cases h : (!Psw.ep s.psw && Psw.np s.psw) <;> simp

/-! ### writeSys -/

@[simp] theorem State.writeSys_gpr (v : Word) (r : SysReg) : (State.writeSys v s r).gpr = s.gpr := by cases r <;> rfl
@[simp] theorem State.writeSys_pc (v : Word) (r : SysReg) : (State.writeSys v s r).pc = s.pc := by cases r <;> rfl
@[simp] theorem State.writeSys_psw (v : Word) (r : SysReg) :
    (State.writeSys v s r).psw = if r = .psw then v.extractLsb' 0 8 else s.psw := by cases r <;> rfl
@[simp] theorem State.writeSys_eipc (v : Word) (r : SysReg) :
    (State.writeSys v s r).eipc = if r = .eipc then v.extractLsb' 0 24 else s.eipc := by cases r <;> rfl
@[simp] theorem State.writeSys_eipsw (v : Word) (r : SysReg) :
    (State.writeSys v s r).eipsw = if r = .eipsw then v.extractLsb' 0 8 else s.eipsw := by cases r <;> rfl
@[simp] theorem State.writeSys_fepc (v : Word) (r : SysReg) :
    (State.writeSys v s r).fepc = if r = .fepc then v.extractLsb' 0 24 else s.fepc := by cases r <;> rfl
@[simp] theorem State.writeSys_fepsw (v : Word) (r : SysReg) :
    (State.writeSys v s r).fepsw = if r = .fepsw then v.extractLsb' 0 8 else s.fepsw := by cases r <;> rfl
@[simp] theorem State.writeSys_fecc (v : Word) (r : SysReg) : (State.writeSys v s r).fecc = s.fecc := by cases r <;> rfl
@[simp] theorem State.writeSys_eicc (v : Word) (r : SysReg) : (State.writeSys v s r).eicc = s.eicc := by cases r <;> rfl
@[simp] theorem State.writeSys_halted (v : Word) (r : SysReg) : (State.writeSys v s r).halted = s.halted := by cases r <;> rfl
@[simp] theorem State.writeSys_inputs (v : Word) (r : SysReg) : (State.writeSys v s r).inputs = s.inputs := by cases r <;> rfl
@[simp] theorem State.writeSys_mem (v : Word) (r : SysReg) : (State.writeSys v s r).mem = s.mem := by cases r <;> rfl
@[simp] theorem State.writeSys_product (v : Word) (r : SysReg) : (State.writeSys v s r).product = s.product := by cases r <;> rfl
@[simp] theorem State.writeSys_freeCount (v : Word) (r : SysReg) : (State.writeSys v s r).freeCount = s.freeCount := by cases r <;> rfl
@[simp] theorem State.writeSys_events (v : Word) (r : SysReg) : (State.writeSys v s r).events = s.events := by cases r <;> rfl
@[simp] theorem State.writeSys_reg (v : Word) (r : SysReg) (q : Reg) : (State.writeSys v s r).reg q = s.reg q := by
  cases r <;> rfl

end Updates

/-! ### General registers (R11) -/

/-- r0 reads 0 in every state. -/
@[simp] theorem State.reg_zero (s : State) : s.reg 0 = 0#32 := rfl

/-- A register after a write: the value where the number is the written one and not r0, else the old value. -/
theorem State.reg_setReg (s : State) (r q : Reg) (v : Word) :
    (s.setReg r v).reg q = if q = r ∧ r ≠ 0 then v else s.reg q := by
  by_cases hr : r = 0
  · simp [State.reg, State.setReg, hr]
  · by_cases hq : q = r
    · subst hq; simp [State.reg, State.setReg, hr]
    · have hv : ¬ r.val = q.val := fun h => hq (Fin.ext h.symm)
      simp [State.reg, State.setReg, hr, hq, hv]

/-- The written register reads the value, r0 reads 0. -/
@[simp] theorem State.reg_setReg_self (s : State) (r : Reg) (v : Word) :
    (s.setReg r v).reg r = if r = 0 then 0#32 else v := by
  by_cases hr : r = 0
  · subst hr; simp
  · simp [State.reg_setReg, hr]

/-- Every other register keeps its value. -/
theorem State.reg_setReg_ne (s : State) {r q : Reg} (v : Word) (h : q ≠ r) : (s.setReg r v).reg q = s.reg q := by
  simp [State.reg_setReg, h]

/-- The cell of r0 is never written. -/
@[simp] theorem State.setReg_cell_zero (s : State) (r : Reg) (v : Word) : (s.setReg r v).gpr[0] = s.gpr[0] := by
  by_cases hr : r = 0
  · simp [State.setReg, hr]
  · have hv : ¬ r.val = 0 := fun h => hr (Fin.ext h)
    simp [State.setReg, hr, hv]

end Sys2Proof.Machine
end

