-- ==== Sys2Proof/Laws/Alu.lean ====
section
/-!
SUPPORT. The flag computations said in integer arithmetic, the saturated result as a clamp, and what each common ending of the
instructions (a value to reg2, flags alone) does to the state.
-/

namespace Sys2Proof.Machine

/-! ### Flags of a result -/

/-- S is the sign of the result. -/
theorem signFlag_iff (r : Word) : signFlag r = true ↔ r.toInt < 0 := by
  have h : signFlag r = r.msb := by simp [signFlag, BitVec.msb_eq_getLsbD_last]
  rw [h, BitVec.msb_eq_toInt]; simp

/-- Z says that the result is 0. -/
theorem zeroFlag_iff (r : Word) : zeroFlag r = true ↔ r.toNat = 0 := by
  unfold zeroFlag
  rw [beq_iff_eq]
  exact ⟨fun h => by simp [h], fun h => BitVec.eq_of_toNat_eq (by simpa using h)⟩

/-- The overflow test. -/
theorem outOfRange_iff (n : Int) : outOfRange n = true ↔ OutOfWord n := by
  simp [outOfRange, OutOfWord]

/-- An integer in the range of a word is its own wrapped value. -/
theorem toInt_ofInt_of_inRange {n : Int} (h : ¬ OutOfWord n) : (BitVec.ofInt 32 n).toInt = n := by
  rw [OutOfWord, not_or] at h
  rw [BitVec.toInt_ofInt]
  exact Int.bmod_eq_of_le (by norm_num; omega) (by norm_num; omega)

/-! ### Saturation (R140) -/

/-- The stored value of a saturated operation is the exact result clamped, where the ordinary result is its wrapped value
and the overflow flag is its overflow test. -/
theorem aluSaturate_clamps {exact : Int} {o : Alu} (hr : o.r = BitVec.ofInt 32 exact) (ho : o.ov = outOfRange exact) :
    (aluSaturate exact o).r.toInt = clamp exact := by
  unfold aluSaturate clamp
  by_cases hv : OutOfWord exact
  · have h1 : o.ov = true := ho.trans ((outOfRange_iff _).mpr hv)
    rw [OutOfWord] at hv
    by_cases hp : 0 < exact
    · simp [h1, hp]; omega
    · simp [h1, hp]; omega
  · have h1 : o.ov = false := ho.trans (by rw [← Bool.not_eq_true, outOfRange_iff]; exact hv)
    have h2 := toInt_ofInt_of_inRange hv
    rw [OutOfWord] at hv
    simp only [h1, hr, Bool.false_eq_true, if_false, h2]
    omega

/-! ### Common endings -/

/-- The frame of a write to one register, a new PSW and a new pc. -/
theorem frameBut_of_write {s t : State} {reg2 : Reg} {v : Word} {p : Psw} {a : PcVal}
    (h : t = (((s.setReg reg2 v).setPsw p).setPc a)) : FrameBut [reg2] s t ∧ Written t reg2 v ∧ t.psw = p := by
  subst h
  refine ⟨⟨fun r hr => ?_, ⟨rfl, rfl, rfl, rfl, rfl, rfl⟩, fun _ => rfl, ⟨rfl, rfl, rfl⟩, ⟨rfl, rfl⟩⟩, ?_, rfl⟩
  · simpa using State.reg_setReg_ne s v (by simpa using hr)
  · simp [Written]

/-- The frame of a new PSW and a new pc. -/
theorem frameBut_of_flags {s t : State} {p : Psw} {a : PcVal} (h : t = ((s.setPsw p).setPc a)) :
    FrameBut [] s t ∧ t.psw = p := by
  subst h
  exact ⟨⟨fun _ _ => rfl, ⟨rfl, rfl, rfl, rfl, rfl, rfl⟩, fun _ => rfl, ⟨rfl, rfl, rfl⟩, ⟨rfl, rfl⟩⟩, rfl⟩

end Sys2Proof.Machine
end

