-- ==== Sys2Proof/Laws/Encoding.lean ====
section
/-!
SUPPORT. Packing and unpacking: a half-word and its bytes, a register and its field, a condition and its code, a format and its
fields.
-/

namespace Sys2Proof

/-- The low byte of two joined bytes. -/
@[simp] theorem extract_low_byte (b1 b0 : Byte) : (b1 ++ b0).extractLsb' 0 8 = b0 := by
  apply BitVec.eq_of_getLsbD_eq
  intro i hi
  rw [BitVec.getLsbD_extractLsb', BitVec.getLsbD_append]
  simp [hi]

/-- The high byte of two joined bytes. -/
@[simp] theorem extract_high_byte (b1 b0 : Byte) : (b1 ++ b0).extractLsb' 8 8 = b1 := by
  apply BitVec.eq_of_getLsbD_eq
  intro i hi
  rw [BitVec.getLsbD_extractLsb', BitVec.getLsbD_append]
  simp [hi]

/-- A half-word is its two bytes joined. -/
@[simp] theorem join_bytes (h : Half) : h.extractLsb' 8 8 ++ h.extractLsb' 0 8 = h := by
  apply BitVec.eq_of_getLsbD_eq
  intro i hi
  rw [BitVec.getLsbD_append]
  split
  · rename_i hl; simp [hl]
  · rw [BitVec.getLsbD_extractLsb']
    have h8 : i - 8 < 8 := by omega
    have e : 8 + (i - 8) = i := by omega
    simp [h8, e]

/-- The bytes of two joined bytes. -/
@[simp] theorem halfBytes_join (b1 b0 : Byte) : halfBytes (b1 ++ b0) = [b0, b1] := by simp [halfBytes]

/-- Decoding two bytes of a 16-bit code. -/
theorem decode_short {h0 : Half} (rest : List Byte) (hl : isLong h0 = false) :
    decode (halfBytes h0 ++ rest) = (decodeShort h0).map fun i => (i, rest) := by
  simp [halfBytes, decode, hl]

/-- Decoding four bytes of a 32-bit code. -/
theorem decode_long {h0 : Half} (h1 : Half) (rest : List Byte) (hl : isLong h0 = true) :
    decode (halfBytes h0 ++ (halfBytes h1 ++ rest)) = (decodeLong h0 h1).map fun i => (i, rest) := by
  simp [halfBytes, decode, hl]

/-- A register's field selects it. -/
@[simp] theorem regOf_regBits (r : Reg) : regOf (regBits r) = r := by
  revert r; decide

/-- The field of a selected register. -/
@[simp] theorem regBits_regOf (b : BitVec 5) : regBits (regOf b) = b := by
  revert b; decide

/-- A condition's code names it. -/
@[simp] theorem ofCode_code (cond : Cond) : Cond.ofCode cond.code = cond := by cases cond <;> rfl

/-- The code of a named condition. -/
@[simp] theorem code_ofCode (b : BitVec 4) : (Cond.ofCode b).code = b := by
  revert b; decide

/-- The high field of a format I half-word. -/
theorem packI_hi (hi : BitVec 5) (op : BitVec 6) (lo : BitVec 5) : (packI hi op lo).extractLsb' 11 5 = hi := by
  apply BitVec.eq_of_getLsbD_eq
  intro i h
  simp only [packI, BitVec.getLsbD_extractLsb', BitVec.getLsbD_append, h, decide_true, Bool.true_and]
  rw [if_neg (by omega), if_neg (by omega)]
  congr 1; omega

/-- The op code of a format I half-word. -/
theorem packI_op (hi : BitVec 5) (op : BitVec 6) (lo : BitVec 5) : (packI hi op lo).extractLsb' 5 6 = op := by
  apply BitVec.eq_of_getLsbD_eq
  intro i h
  simp only [packI, BitVec.getLsbD_extractLsb', BitVec.getLsbD_append, h, decide_true, Bool.true_and]
  rw [if_neg (by omega), if_pos (by omega)]
  congr 1; omega

/-- The low field of a format I half-word. -/
theorem packI_lo (hi : BitVec 5) (op : BitVec 6) (lo : BitVec 5) : (packI hi op lo).extractLsb' 0 5 = lo := by
  apply BitVec.eq_of_getLsbD_eq
  intro i h
  simp only [packI, BitVec.getLsbD_extractLsb', BitVec.getLsbD_append, h, decide_true, Bool.true_and]
  rw [if_pos (by omega)]
  congr 1; omega

/-- A half-word is packed from its fields. -/
theorem packI_fields (h : Half) : packI (h.extractLsb' 11 5) (h.extractLsb' 5 6) (h.extractLsb' 0 5) = h := by
  apply BitVec.eq_of_getLsbD_eq
  intro i hi
  simp only [packI, BitVec.getLsbD_append, BitVec.getLsbD_extractLsb']
  split
  · rename_i h1; simp [h1]
  · split
    · rename_i h1 h2
      have e : 5 + (i - 5) = i := by omega
      simp [h2, e]
    · rename_i h1 h2
      have h3 : i - 5 - 6 < 5 := by omega
      have e : 11 + (i - 5 - 6) = i := by omega
      simp [h3, e]

end Sys2Proof
end

