-- ==== Sys2Proof/Laws/Memory.lean ====
section
/-!
SUPPORT. The laws of memory: a read after a write, the canonical form, and the bytes of a wider datum.
-/

namespace Sys2Proof.Machine

/-- Every other address reads as before. -/
theorem Memory.read_write_ne {k a : Nat} (v : Byte) (h : a ≠ k) (m : List Host.Cell) :
    Memory.read (Memory.write k v m) a = Memory.read m a := by
  induction m with
  | nil =>
    unfold Memory.write
    split
    · rfl
    · simp [Memory.read, h]
  | cons c m ih =>
    obtain ⟨b, w⟩ := c
    unfold Memory.write
    split
    · split
      · rfl
      · simp [Memory.read, h]
    · split
      · rename_i _ hk
        have hb : a ≠ b := fun e => h (e.trans hk.symm)
        split <;> simp [Memory.read, h, hb]
      · simp [Memory.read, ih]

/-- A list in canonical form from `lo` is one from any lower bound. -/
theorem Memory.wfFrom_mono {lo lo' : Nat} {m : List Host.Cell} (h : Memory.wfFrom lo m = true) (hl : lo' ≤ lo) :
    Memory.wfFrom lo' m = true := by
  cases m with
  | nil => rfl
  | cons c m =>
    obtain ⟨a, b⟩ := c
    simp only [Memory.wfFrom, Bool.and_eq_true, decide_eq_true_eq] at h ⊢
    exact ⟨⟨⟨by omega, h.1.1.2⟩, h.1.2⟩, h.2⟩

/-- Below its first address a canonical list reads blank. -/
theorem Memory.read_below {lo a : Nat} {m : List Host.Cell} (h : Memory.wfFrom lo m = true) (ha : a < lo) :
    Memory.read m a = Memory.blank := by
  induction m generalizing lo with
  | nil => rfl
  | cons c m ih =>
    obtain ⟨b, w⟩ := c
    simp only [Memory.wfFrom, Bool.and_eq_true, decide_eq_true_eq] at h
    have hb : a ≠ b := by omega
    rw [Memory.read, if_neg hb]
    exact ih h.2 (by omega)

/-- The written address reads the value, in a canonical list. -/
theorem Memory.read_write_self_from {lo k : Nat} (v : Byte) {m : List Host.Cell} (h : Memory.wfFrom lo m = true) :
    Memory.read (Memory.write k v m) k = v := by
  induction m generalizing lo with
  | nil =>
    unfold Memory.write
    split <;> rename_i hv
    · exact hv.symm
    · simp [Memory.read]
  | cons c m ih =>
    obtain ⟨b, w⟩ := c
    simp only [Memory.wfFrom, Bool.and_eq_true, decide_eq_true_eq] at h
    unfold Memory.write
    split
    · split <;> rename_i hk hv
      · rw [Memory.read, if_neg (by omega), hv]
        exact Memory.read_below h.2 (by omega)
      · simp [Memory.read]
    · split
      · split <;> rename_i hk hv
        · rw [hv]
          exact Memory.read_below h.2 (by omega)
        · simp [Memory.read]
      · rename_i hk
        rw [Memory.read, if_neg hk]
        exact ih h.2

/-- The written address reads the value (R50). -/
theorem Memory.read_write_self (k : Nat) (v : Byte) {m : List Host.Cell} (h : Memory.wf m = true) :
    Memory.read (Memory.write k v m) k = v :=
  Memory.read_write_self_from v h

/-- A write keeps the canonical form above a bound that it respects. -/
theorem Memory.wfFrom_write {lo k : Nat} (v : Byte) {m : List Host.Cell} (h : Memory.wfFrom lo m = true) (hlo : lo ≤ k)
    (hk : k < 2 ^ 32) : Memory.wfFrom lo (Memory.write k v m) = true := by
  induction m generalizing lo with
  | nil =>
    unfold Memory.write
    split
    · rfl
    · simp_all [Memory.wfFrom]
  | cons c m ih =>
    obtain ⟨b, w⟩ := c
    have h' := h
    simp only [Memory.wfFrom, Bool.and_eq_true, decide_eq_true_eq] at h
    unfold Memory.write
    split
    · split
      · exact h'
      · rename_i hkb hv
        simp only [Memory.wfFrom, Bool.and_eq_true, decide_eq_true_eq]
        exact ⟨⟨⟨hlo, hk⟩, hv⟩, ⟨⟨⟨hkb, h.1.1.2⟩, h.1.2⟩, h.2⟩⟩
    · split
      · split
        · exact Memory.wfFrom_mono h.2 (by omega)
        · rename_i hkb hv
          simp only [Memory.wfFrom, Bool.and_eq_true, decide_eq_true_eq]
          exact ⟨⟨⟨hlo, hk⟩, hv⟩, by rw [hkb]; exact h.2⟩
      · simp only [Memory.wfFrom, Bool.and_eq_true, decide_eq_true_eq]
        exact ⟨h.1, ih h.2 (by omega)⟩

/-- A write keeps the canonical form (R40). -/
theorem Memory.wf_write {k : Nat} (v : Byte) {m : List Host.Cell} (h : Memory.wf m = true) (hk : k < 2 ^ 32) :
    Memory.wf (Memory.write k v m) = true :=
  Memory.wfFrom_write v h (Nat.zero_le k) hk

/-- A block write keeps the canonical form. -/
theorem Memory.wf_writeBytes {k : Nat} (bs : List Byte) {m : List Host.Cell} (h : Memory.wf m = true)
    (hk : k + bs.length ≤ 2 ^ 32) : Memory.wf (Memory.writeBytes k bs m) = true := by
  induction bs generalizing k m with
  | nil => exact h
  | cons b bs ih =>
    simp only [List.length_cons] at hk
    exact ih (Memory.wf_write b h (by omega)) (by omega)

/-- Outside a block write every address reads as before. -/
theorem Memory.read_writeBytes_outside {k a : Nat} (bs : List Byte) (m : List Host.Cell)
    (h : a < k ∨ k + bs.length ≤ a) : Memory.read (Memory.writeBytes k bs m) a = Memory.read m a := by
  induction bs generalizing k m with
  | nil => rfl
  | cons b bs ih =>
    simp only [List.length_cons] at h
    rw [Memory.writeBytes, ih _ (by omega), Memory.read_write_ne b (by omega)]

/-- Inside a block write an address reads its byte. -/
theorem Memory.read_writeBytes_inside {k j : Nat} (bs : List Byte) {m : List Host.Cell} (h : Memory.wf m = true)
    (hk : k + bs.length ≤ 2 ^ 32) (hj : j < bs.length) :
    Memory.read (Memory.writeBytes k bs m) (k + j) = bs[j] := by
  induction bs generalizing k m j with
  | nil => exact absurd hj (Nat.not_lt_zero j)
  | cons b bs ih =>
    simp only [List.length_cons] at hk hj
    cases j with
    | zero =>
      rw [Memory.writeBytes, Memory.read_writeBytes_outside _ _ (by omega)]
      exact Memory.read_write_self k b h
    | succ j =>
      have e : k + (j + 1) = (k + 1) + j := by omega
      rw [Memory.writeBytes, e]
      exact ih (Memory.wf_write b h (by omega)) (by omega) (by omega)

/-- The number of bytes of a datum. -/
@[simp] theorem Width.toBytes_length (w : Width) (v : Word) : (w.toBytes v).length = w.bytes := by cases w <;> rfl

/-- An aligned access stays inside the 2^32 bytes of memory (R44, R113). -/
theorem Width.align_bound (w : Width) (adr : Word) : (w.align adr).toNat + w.bytes ≤ 2 ^ 32 := by
  cases w with
  | byte => simpa [Width.align, Width.bytes] using adr.isLt
  | half =>
    have h : (adr &&& 0xFFFFFFFE#32) ≤ 0xFFFFFFFE#32 := by
      rw [BitVec.le_def, BitVec.toNat_and]; exact Nat.and_le_right
    simp only [Width.align, Width.bytes]
    have := BitVec.le_def.mp h
    simp at this ⊢; omega
  | word =>
    have h : (adr &&& 0xFFFFFFFC#32) ≤ 0xFFFFFFFC#32 := by
      rw [BitVec.le_def, BitVec.toNat_and]; exact Nat.and_le_right
    simp only [Width.align, Width.bytes]
    have := BitVec.le_def.mp h
    simp at this ⊢; omega

/-- Outside the bytes of a datum written, every address reads as before. -/
theorem Memory.read_writeLE_outside (m : List Host.Cell) {k a : Nat} (w : Width) (v : Word)
    (h : a < k ∨ k + w.bytes ≤ a) : Memory.read (Memory.writeLE m k w v) a = Memory.read m a :=
  Memory.read_writeBytes_outside _ _ (by simpa using h)

/-- A datum written keeps the canonical form. -/
theorem Memory.wf_writeLE {m : List Host.Cell} {k : Nat} (w : Width) (v : Word) (h : Memory.wf m = true)
    (hk : k + w.bytes ≤ 2 ^ 32) : Memory.wf (Memory.writeLE m k w v) = true :=
  Memory.wf_writeBytes _ h (by simpa using hk)

end Sys2Proof.Machine
end

