-- ==== Sys2Proof/Laws/Ops.lean ====
section
/-!
SUPPORT. What each shared operation can do, said once: the data accesses, the system registers, the boundary and the step. Later
proofs cite these and do not unfold the operations.
-/

namespace Sys2Proof.Machine

/-! ### Ranges -/

/-- `allBytes` says its property of each byte. -/
theorem allBytes_iff (f : Nat → Bool) (a n : Nat) : allBytes f a n = true ↔ ∀ j, j < n → f (a + j) = true := by
  induction n generalizing a with
  | zero => simp [allBytes]
  | succ n ih =>
    simp only [allBytes, Bool.and_eq_true, ih]
    constructor
    · rintro ⟨h0, h⟩ j hj
      cases j with
      | zero => exact h0
      | succ j => simpa [Nat.add_comm, Nat.add_left_comm] using h j (by omega)
    · exact fun h => ⟨h 0 (by omega), fun j hj => by simpa [Nat.add_comm, Nat.add_left_comm] using h (j + 1) (by omega)⟩

/-- Some byte lacks the property where `allBytes` is false. -/
theorem allBytes_eq_false_iff (f : Nat → Bool) (a n : Nat) :
    allBytes f a n = false ↔ ∃ j, j < n ∧ f (a + j) = false := by
  rw [← Bool.not_eq_true, allBytes_iff]
  simp only [not_forall, Bool.not_eq_true]
  exact ⟨fun ⟨j, hj, h⟩ => ⟨j, hj, h⟩, fun ⟨j, hj, h⟩ => ⟨j, hj, h⟩⟩

/-- A byte that can be stored to can be read. -/
theorem readable_of_writable {p : Config.Product} {a : Nat} (h : writable p a = true) : readable p a = true := by
  simp only [writable, Bool.and_eq_true] at h
  exact h.1

/-- No memory range reaches into the peripheral area. -/
theorem not_peripheral_of_readable {p : Config.Product} {a : Nat} (h : readable p a = true) : isPeripheral a = false := by
  cases hp : isPeripheral a
  · rfl
  · simp [readable, inRom, inRam, inExternal, hp] at h

/-! ### Alignment -/

/-- A byte address is its own aligned address. -/
@[simp] theorem Width.align_byte (adr : Word) : Width.align .byte adr = adr := rfl

/-- Aligning twice is aligning once. -/
@[simp] theorem Width.align_align (w : Width) (adr : Word) : w.align (w.align adr) = w.align adr := by
  cases w <;> simp [Width.align, BitVec.and_assoc]

/-! ### Data accesses -/

/-- A load from the peripheral area. -/
theorem State.load_peripheral {s : State} {w : Width} {adr : Word} (h : isPeripheral (w.align adr).toNat = true) :
    s.load w adr = .ok (w.low (Config.peripheralRead s.freeCount (w.align adr)),
      (s.emit (.ioRead w (w.align adr))).tick) := by
  simp [State.load, h]

/-- A load from readable memory. -/
theorem State.load_memory {s : State} {w : Width} {adr : Word} (h : isPeripheral (w.align adr).toNat = false)
    (hr : ∀ j, j < w.bytes → readable s.product ((w.align adr).toNat + j) = true) :
    s.load w adr = .ok (Memory.readLE s.mem (w.align adr).toNat w, s) := by
  simp [State.load, h, (allBytes_iff _ _ _).mpr hr]

/-- A load with an unmapped byte. -/
theorem State.load_unmapped {s : State} {w : Width} {adr : Word} (h : isPeripheral (w.align adr).toNat = false)
    (hr : ∃ j, j < w.bytes ∧ readable s.product ((w.align adr).toNat + j) = false) :
    s.load w adr = .error (.fault (.unmappedLoad (w.align adr))) := by
  simp [State.load, h, (allBytes_eq_false_iff _ _ _).mpr hr]

/-- All that a load that answers can do. -/
theorem State.load_cases {s t : State} {w : Width} {adr v : Word} (h : s.load w adr = .ok (v, t)) :
    (v = w.low (Config.peripheralRead s.freeCount (w.align adr)) ∧ t = (s.emit (.ioRead w (w.align adr))).tick) ∨
      (v = Memory.readLE s.mem (w.align adr).toNat w ∧ t = s) := by
  simp only [State.load] at h
  split at h
  · simp only [Except.ok.injEq, Prod.mk.injEq] at h
    exact .inl ⟨h.1.symm, h.2.symm⟩
  · split at h
    · simp only [Except.ok.injEq, Prod.mk.injEq] at h
      exact .inr ⟨h.1.symm, h.2.symm⟩
    · cases h

/-- The only way a load stops. -/
theorem State.load_error {s : State} {w : Width} {adr : Word} {e : Stop} (h : s.load w adr = .error e) :
    e = .fault (.unmappedLoad (w.align adr)) ∧ isPeripheral (w.align adr).toNat = false ∧
      ∃ j, j < w.bytes ∧ readable s.product ((w.align adr).toNat + j) = false := by
  simp only [State.load] at h
  split at h
  · cases h
  · split at h
    · cases h
    · rename_i hp hr
      simp only [Except.error.injEq] at h
      exact ⟨h.symm, by simpa using hp, (allBytes_eq_false_iff _ _ _).mp (by simpa using hr)⟩

/-- A store to the peripheral area. -/
theorem State.store_peripheral {s : State} {w : Width} {adr v : Word} (h : isPeripheral (w.align adr).toNat = true) :
    s.store w adr v = .ok (s.emit (.ioWrite w (w.align adr) (w.low v))) := by
  simp [State.store, h]

/-- A store to writable memory. -/
theorem State.store_memory {s : State} {w : Width} {adr v : Word} (h : isPeripheral (w.align adr).toNat = false)
    (hr : ∀ j, j < w.bytes → writable s.product ((w.align adr).toNat + j) = true) :
    s.store w adr v = .ok (s.setMem (Memory.writeLE s.mem (w.align adr).toNat w v)) := by
  simp [State.store, h, (allBytes_iff _ _ _).mpr hr]

/-- A store with a byte in ROM. -/
theorem State.store_rom {s : State} {w : Width} {adr v : Word} (h : isPeripheral (w.align adr).toNat = false)
    (hr : ∀ j, j < w.bytes → readable s.product ((w.align adr).toNat + j) = true)
    (hw : ∃ j, j < w.bytes ∧ writable s.product ((w.align adr).toNat + j) = false) :
    s.store w adr v = .error (.refusal (.storeToRom (w.align adr))) := by
  simp [State.store, h, (allBytes_iff _ _ _).mpr hr, (allBytes_eq_false_iff _ _ _).mpr hw]

/-- A store with an unmapped byte. -/
theorem State.store_unmapped {s : State} {w : Width} {adr v : Word} (h : isPeripheral (w.align adr).toNat = false)
    (hr : ∃ j, j < w.bytes ∧ readable s.product ((w.align adr).toNat + j) = false) :
    s.store w adr v = .error (.fault (.unmappedStore (w.align adr))) := by
  obtain ⟨j, hj, hu⟩ := hr
  have hw : ∃ j, j < w.bytes ∧ writable s.product ((w.align adr).toNat + j) = false :=
    ⟨j, hj, by simp [writable, hu]⟩
  simp [State.store, h, (allBytes_eq_false_iff _ _ _).mpr ⟨j, hj, hu⟩, (allBytes_eq_false_iff _ _ _).mpr hw]

/-- All that a store that answers can do. -/
theorem State.store_cases {s t : State} {w : Width} {adr v : Word} (h : s.store w adr v = .ok t) :
    t = s.emit (.ioWrite w (w.align adr) (w.low v)) ∨ t = s.setMem (Memory.writeLE s.mem (w.align adr).toNat w v) := by
  simp only [State.store] at h
  split at h
  · exact .inl (by simpa using h.symm)
  · split at h
    · exact .inr (by simpa using h.symm)
    · split at h <;> cases h

/-- A store that stops does so at a byte below the peripheral area that cannot be stored to. -/
theorem State.store_error {s : State} {w : Width} {adr v : Word} {e : Stop} (h : s.store w adr v = .error e) :
    isPeripheral (w.align adr).toNat = false ∧
      ∃ j, j < w.bytes ∧ writable s.product ((w.align adr).toNat + j) = false := by
  simp only [State.store] at h
  split at h
  · cases h
  · split at h
    · cases h
    · rename_i hp hw
      exact ⟨by simpa using hp, (allBytes_eq_false_iff _ _ _).mp (by simpa using hw)⟩

/-- A load stops exactly where a byte of its access is outside every range (D11). -/
theorem State.load_stops_iff {s : State} {w : Width} {adr : Word} :
    (∃ e, s.load w adr = .error e) ↔ UnmappedAt s w (w.align adr) := by
  constructor
  · rintro ⟨e, h⟩
    exact (State.load_error h).2
  · rintro ⟨hp, hr⟩
    exact ⟨_, State.load_unmapped hp hr⟩

/-- A store stops exactly where a byte of its access is outside every range or in ROM (D11). -/
theorem State.store_stops_iff {s : State} {w : Width} {adr v : Word} :
    (∃ e, s.store w adr v = .error e) ↔ UnmappedAt s w (w.align adr) ∨ TouchesRomAt s w (w.align adr) := by
  constructor
  · rintro ⟨e, h⟩
    obtain ⟨hp, j, hj, hw⟩ := State.store_error h
    by_cases hr : ∀ k, k < w.bytes → readable s.product ((w.align adr).toNat + k) = true
    · exact .inr ⟨⟨hp, hr⟩, j, hj, by simpa [writable, hr j hj] using hw⟩
    · simp only [not_forall, Bool.not_eq_true] at hr
      obtain ⟨k, hk, hu⟩ := hr
      exact .inl ⟨hp, k, hk, hu⟩
  · rintro (⟨hp, hr⟩ | ⟨⟨hp, hr⟩, j, hj, hw⟩)
    · exact ⟨_, State.store_unmapped hp hr⟩
    · exact ⟨_, State.store_rom hp hr ⟨j, hj, by simp [writable, hw]⟩⟩

/-- An aligned access that starts below the peripheral area ends below it (R44, R49). -/
theorem Width.align_below_peripheral (w : Width) (adr : Word) {j : Nat} (hj : j < w.bytes)
    (h : isPeripheral (w.align adr).toNat = false) : (w.align adr).toNat + j < peripheralBase := by
  simp only [isPeripheral, decide_eq_false_iff_not, Nat.not_le] at h
  cases w with
  | byte => simp only [Width.bytes] at hj; omega
  | half =>
    simp only [Width.align, Width.bytes, BitVec.toNat_and, peripheralBase] at *
    have : (adr.toNat &&& (0xFFFFFFFE#32).toNat) % 2 = 0 := by
      rw [show (2 : Nat) = 2 ^ 1 from rfl, Nat.and_mod_two_pow]; simp
    omega
  | word =>
    simp only [Width.align, Width.bytes, BitVec.toNat_and, peripheralBase] at *
    have : (adr.toNat &&& (0xFFFFFFFC#32).toNat) % 4 = 0 := by
      rw [show (4 : Nat) = 2 ^ 2 from rfl, Nat.and_mod_two_pow]; simp
    omega

/-- A load keeps the whole state but the counter and the record. -/
theorem State.load_keeps {s t : State} {w : Width} {adr v : Word} (h : s.load w adr = .ok (v, t)) :
    t = { s with freeCount := t.freeCount, events := t.events } := by
  rcases State.load_cases h with ⟨-, rfl⟩ | ⟨-, rfl⟩ <;> rfl

/-- A store keeps the whole state but memory and the record. -/
theorem State.store_keeps {s t : State} {w : Width} {adr v : Word} (h : s.store w adr v = .ok t) :
    t = { s with mem := t.mem, events := t.events } := by
  rcases State.store_cases h with rfl | rfl <;> rfl

/-- A store keeps memory in canonical form. -/
theorem State.store_wf {s t : State} {w : Width} {adr v : Word} (h : s.store w adr v = .ok t)
    (hm : Memory.wf s.mem = true) : Memory.wf t.mem = true := by
  rcases State.store_cases h with rfl | rfl
  · exact hm
  · exact Memory.wf_writeLE w v hm (Width.align_bound w adr)

/-! ### System registers -/

/-- The six numbers that name a system register (R16). -/
theorem SysReg.ofId_cases (n : BitVec 5) :
    (n = 0#5 ∧ SysReg.ofId n = some .eipc) ∨ (n = 1#5 ∧ SysReg.ofId n = some .eipsw) ∨
      (n = 2#5 ∧ SysReg.ofId n = some .fepc) ∨ (n = 3#5 ∧ SysReg.ofId n = some .fepsw) ∨
      (n = 4#5 ∧ SysReg.ofId n = some .ecr) ∨ (n = 5#5 ∧ SysReg.ofId n = some .psw) ∨
      (6 ≤ n.toNat ∧ SysReg.ofId n = none) := by
  revert n; decide

/-! ### The boundary and the step -/

/-- What other bus agents write changes memory alone. -/
theorem State.busWrites_keeps (ws : List Host.Cell) (s : State) :
    State.busWrites ws s = { s with mem := (State.busWrites ws s).mem } := by
  induction ws generalizing s with
  | nil => rfl
  | cons c cs ih =>
    have hc : s.busWrite c = { s with mem := (s.busWrite c).mem } := by
      unfold State.busWrite; split <;> rfl
    rw [State.busWrites, ih, hc]

/-- All that a boundary can lead to. -/
theorem State.boundary_cases (s : State) :
    (s.nextInput.reset = true ∧
      s.boundary = .entered (State.busWrites s.nextInput.busWrites s.dropInput).takeReset) ∨
    (s.nextInput.reset = false ∧ s.nextInput.nmiReq = true ∧ Psw.np s.psw = false ∧
      s.boundary = .entered (State.busWrites s.nextInput.busWrites s.dropInput).takeNmi) ∨
    (∃ req, s.nextInput.reset = false ∧ nmiAccepted s.nextInput s.psw = false ∧ s.nextInput.intReq = some req ∧
      Psw.np s.psw = false ∧ Psw.id s.psw = false ∧
      s.boundary = .entered ((State.busWrites s.nextInput.busWrites s.dropInput).takeInt req)) ∨
    (s.nextInput.reset = false ∧ nmiAccepted s.nextInput s.psw = false ∧ intAccepted s.nextInput s.psw = none ∧
      s.boundary = if s.halted then .waiting (State.busWrites s.nextInput.busWrites s.dropInput)
        else .run (State.busWrites s.nextInput.busWrites s.dropInput)) := by
  have hp : (State.busWrites s.nextInput.busWrites s.dropInput).psw = s.psw := by
    rw [State.busWrites_keeps]; rfl
  have hh : (State.busWrites s.nextInput.busWrites s.dropInput).halted = s.halted := by
    rw [State.busWrites_keeps]; rfl
  unfold State.boundary
  simp only [hp, hh]
  cases hr : s.nextInput.reset with
  | true => exact .inl ⟨rfl, by simp⟩
  | false =>
    cases hn : nmiAccepted s.nextInput s.psw with
    | true =>
      simp only [nmiAccepted, Bool.and_eq_true, Bool.not_eq_true'] at hn
      exact .inr (.inl ⟨rfl, hn.1, hn.2, by simp⟩)
    | false =>
      cases hi : intAccepted s.nextInput s.psw with
      | some req =>
        have hi' := hi
        unfold intAccepted at hi'
        split at hi'
        · cases hi'
        · rename_i hb
          simp only [Bool.or_eq_true, not_or, Bool.not_eq_true] at hb
          exact .inr (.inr (.inl ⟨req, rfl, rfl, hi', hb.1, hb.2, by simp⟩))
      | none => exact .inr (.inr (.inr ⟨rfl, rfl, rfl, by simp⟩))

/-- All that a step that answers can do: an entry or a wait at the boundary, or one instruction. -/
theorem step_cases {s t : State} (h : step s = .next t) :
    s.boundary = .entered t ∨ s.boundary = .waiting t ∨
      ∃ u i, s.boundary = .run u ∧ u.fetch = .ok i ∧ exec i u = .next t := by
  unfold step at h
  split at h
  · rename_i hb; simp only [Host.Outcome.next.injEq] at h; exact .inl (hb.trans (by rw [h]))
  · rename_i hb; simp only [Host.Outcome.next.injEq] at h; exact .inr (.inl (hb.trans (by rw [h])))
  · rename_i u hb
    split at h
    · rename_i i hf; exact .inr (.inr ⟨u, i, hb, hf, h⟩)
    · rename_i e he
      cases e <;> simp [Stop.result] at h

end Sys2Proof.Machine
end

