-- ==== Sys2Proof/Laws/PerInstr.lean ====
section
/-!
SUPPORT. What holds of every instruction as syntax, one lemma a constructor: an encoding is as long as the instruction's format
says (R61 to R71).
-/

namespace Sys2Proof.Laws.EncodeLength

/-- The encoding of an instruction has as many bytes as its format says. -/
def Statement (i : Instr) : Prop := (encodeBytes i).length = i.length

theorem nop : Statement .nop := rfl
theorem movReg (reg1 reg2 : Reg) : Statement (.movReg reg1 reg2) := rfl
theorem notReg (reg1 reg2 : Reg) : Statement (.notReg reg1 reg2) := rfl
theorem divh (reg1 reg2 : Reg) : Statement (.divh reg1 reg2) := rfl
theorem satsubr (reg1 reg2 : Reg) : Statement (.satsubr reg1 reg2) := rfl
theorem satsub (reg1 reg2 : Reg) : Statement (.satsub reg1 reg2) := rfl
theorem sataddReg (reg1 reg2 : Reg) : Statement (.sataddReg reg1 reg2) := rfl
theorem mulhReg (reg1 reg2 : Reg) : Statement (.mulhReg reg1 reg2) := rfl
theorem orReg (reg1 reg2 : Reg) : Statement (.orReg reg1 reg2) := rfl
theorem xorReg (reg1 reg2 : Reg) : Statement (.xorReg reg1 reg2) := rfl
theorem andReg (reg1 reg2 : Reg) : Statement (.andReg reg1 reg2) := rfl
theorem tst (reg1 reg2 : Reg) : Statement (.tst reg1 reg2) := rfl
theorem subr (reg1 reg2 : Reg) : Statement (.subr reg1 reg2) := rfl
theorem sub (reg1 reg2 : Reg) : Statement (.sub reg1 reg2) := rfl
theorem addReg (reg1 reg2 : Reg) : Statement (.addReg reg1 reg2) := rfl
theorem cmpReg (reg1 reg2 : Reg) : Statement (.cmpReg reg1 reg2) := rfl
theorem jmp (reg1 : Reg) : Statement (.jmp reg1) := rfl
theorem movImm (imm5 : BitVec 5) (reg2 : Reg) : Statement (.movImm imm5 reg2) := rfl
theorem sataddImm (imm5 : BitVec 5) (reg2 : Reg) : Statement (.sataddImm imm5 reg2) := rfl
theorem addImm (imm5 : BitVec 5) (reg2 : Reg) : Statement (.addImm imm5 reg2) := rfl
theorem cmpImm (imm5 : BitVec 5) (reg2 : Reg) : Statement (.cmpImm imm5 reg2) := rfl
theorem shrImm (imm5 : BitVec 5) (reg2 : Reg) : Statement (.shrImm imm5 reg2) := rfl
theorem sarImm (imm5 : BitVec 5) (reg2 : Reg) : Statement (.sarImm imm5 reg2) := rfl
theorem shlImm (imm5 : BitVec 5) (reg2 : Reg) : Statement (.shlImm imm5 reg2) := rfl
theorem mulhImm (imm5 : BitVec 5) (reg2 : Reg) : Statement (.mulhImm imm5 reg2) := rfl
theorem bv (disp9 : BitVec 9) : Statement (.bv disp9) := rfl
theorem bl (disp9 : BitVec 9) : Statement (.bl disp9) := rfl
theorem be (disp9 : BitVec 9) : Statement (.be disp9) := rfl
theorem bnh (disp9 : BitVec 9) : Statement (.bnh disp9) := rfl
theorem bn (disp9 : BitVec 9) : Statement (.bn disp9) := rfl
theorem br (disp9 : BitVec 9) : Statement (.br disp9) := rfl
theorem blt (disp9 : BitVec 9) : Statement (.blt disp9) := rfl
theorem ble (disp9 : BitVec 9) : Statement (.ble disp9) := rfl
theorem bnv (disp9 : BitVec 9) : Statement (.bnv disp9) := rfl
theorem bnl (disp9 : BitVec 9) : Statement (.bnl disp9) := rfl
theorem bne (disp9 : BitVec 9) : Statement (.bne disp9) := rfl
theorem bh (disp9 : BitVec 9) : Statement (.bh disp9) := rfl
theorem bp (disp9 : BitVec 9) : Statement (.bp disp9) := rfl
theorem bsa (disp9 : BitVec 9) : Statement (.bsa disp9) := rfl
theorem bge (disp9 : BitVec 9) : Statement (.bge disp9) := rfl
theorem bgt (disp9 : BitVec 9) : Statement (.bgt disp9) := rfl
theorem sldB (disp7 : BitVec 7) (reg2 : Reg) : Statement (.sldB disp7 reg2) := rfl
theorem sstB (reg2 : Reg) (disp7 : BitVec 7) : Statement (.sstB reg2 disp7) := rfl
theorem sldH (disp8 : BitVec 8) (reg2 : Reg) : Statement (.sldH disp8 reg2) := rfl
theorem sstH (reg2 : Reg) (disp8 : BitVec 8) : Statement (.sstH reg2 disp8) := rfl
theorem sldW (disp8 : BitVec 8) (reg2 : Reg) : Statement (.sldW disp8 reg2) := rfl
theorem sstW (reg2 : Reg) (disp8 : BitVec 8) : Statement (.sstW reg2 disp8) := rfl
theorem jr (disp22 : BitVec 22) : Statement (.jr disp22) := rfl
theorem jarl (disp22 : BitVec 22) (reg2 : Reg) : Statement (.jarl disp22 reg2) := rfl
theorem addi (imm16 : BitVec 16) (reg1 reg2 : Reg) : Statement (.addi imm16 reg1 reg2) := rfl
theorem movea (imm16 : BitVec 16) (reg1 reg2 : Reg) : Statement (.movea imm16 reg1 reg2) := rfl
theorem movhi (imm16 : BitVec 16) (reg1 reg2 : Reg) : Statement (.movhi imm16 reg1 reg2) := rfl
theorem satsubi (imm16 : BitVec 16) (reg1 reg2 : Reg) : Statement (.satsubi imm16 reg1 reg2) := rfl
theorem ori (imm16 : BitVec 16) (reg1 reg2 : Reg) : Statement (.ori imm16 reg1 reg2) := rfl
theorem xori (imm16 : BitVec 16) (reg1 reg2 : Reg) : Statement (.xori imm16 reg1 reg2) := rfl
theorem andi (imm16 : BitVec 16) (reg1 reg2 : Reg) : Statement (.andi imm16 reg1 reg2) := rfl
theorem mulhi (imm16 : BitVec 16) (reg1 reg2 : Reg) : Statement (.mulhi imm16 reg1 reg2) := rfl
theorem ldB (disp16 : BitVec 16) (reg1 reg2 : Reg) : Statement (.ldB disp16 reg1 reg2) := rfl
theorem ldH (disp16 : BitVec 16) (reg1 reg2 : Reg) : Statement (.ldH disp16 reg1 reg2) := rfl
theorem ldW (disp16 : BitVec 16) (reg1 reg2 : Reg) : Statement (.ldW disp16 reg1 reg2) := rfl
theorem stB (reg2 : Reg) (disp16 : BitVec 16) (reg1 : Reg) : Statement (.stB reg2 disp16 reg1) := rfl
theorem stH (reg2 : Reg) (disp16 : BitVec 16) (reg1 : Reg) : Statement (.stH reg2 disp16 reg1) := rfl
theorem stW (reg2 : Reg) (disp16 : BitVec 16) (reg1 : Reg) : Statement (.stW reg2 disp16 reg1) := rfl
theorem set1 (bit3 : BitVec 3) (disp16 : BitVec 16) (reg1 : Reg) : Statement (.set1 bit3 disp16 reg1) := rfl
theorem not1 (bit3 : BitVec 3) (disp16 : BitVec 16) (reg1 : Reg) : Statement (.not1 bit3 disp16 reg1) := rfl
theorem clr1 (bit3 : BitVec 3) (disp16 : BitVec 16) (reg1 : Reg) : Statement (.clr1 bit3 disp16 reg1) := rfl
theorem tst1 (bit3 : BitVec 3) (disp16 : BitVec 16) (reg1 : Reg) : Statement (.tst1 bit3 disp16 reg1) := rfl
theorem setf (cccc : Cond) (reg2 : Reg) : Statement (.setf cccc reg2) := rfl
theorem ldsr (reg2 : Reg) (regID : BitVec 5) : Statement (.ldsr reg2 regID) := rfl
theorem stsr (regID : BitVec 5) (reg2 : Reg) : Statement (.stsr regID reg2) := rfl
theorem shrReg (reg1 reg2 : Reg) : Statement (.shrReg reg1 reg2) := rfl
theorem sarReg (reg1 reg2 : Reg) : Statement (.sarReg reg1 reg2) := rfl
theorem shlReg (reg1 reg2 : Reg) : Statement (.shlReg reg1 reg2) := rfl
theorem trap (vector : BitVec 5) : Statement (.trap vector) := rfl
theorem halt : Statement .halt := rfl
theorem reti : Statement .reti := rfl
theorem di : Statement .di := rfl
theorem ei : Statement .ei := rfl
theorem ilgop (bits15to11 bits4to0 bits31to27 : BitVec 5) (subOp : BitVec 4) (bits22to16 : BitVec 7) :
    Statement (.ilgop bits15to11 bits4to0 bits31to27 subOp bits22to16) := rfl

end Sys2Proof.Laws.EncodeLength
end

