-- ==== Sys2Proof/Tests/Slice0.lean ====
section
/-!
SUPPORT. The model's own tests: the well-formedness checks refuse ill-formed terms, a word of every instruction written out from the
encodings of spec/30_encoding.md decodes to it, single steps give what the tables of the rules and spec/95_test_vectors.md say, and
the hypotheses of every statement are met by a concrete state.
-/

namespace Sys2Proof.Tests

open Sys2Proof Sys2Proof.Machine

/-! ### WellFormed: an ill-formed term for each check -/

theorem test_wf_movReg_r0_r0_is_nop : (Instr.movReg 0 0).wf = false ∧ (Instr.movReg 0 1).wf = true := by decide
theorem test_wf_branch_odd_disp9 : (Instr.bv 1#9).wf = false ∧ (Instr.bgt 511#9).wf = false ∧ (Instr.br 510#9).wf = true := by
  decide
theorem test_wf_short_half_odd_disp8 : (Instr.sldH 1#8 5).wf = false ∧ (Instr.sstH 5 255#8).wf = false := by decide
theorem test_wf_short_word_disp8_not_multiple_of_four :
    (Instr.sldW 2#8 5).wf = false ∧ (Instr.sstW 5 1#8).wf = false ∧ (Instr.sldW 252#8 5).wf = true := by decide
theorem test_wf_jump_odd_disp22 : (Instr.jr 1#22).wf = false ∧ (Instr.jarl 3#22 31).wf = false := by decide
theorem test_wf_jarl_r0_is_jr : (Instr.jarl 2#22 0).wf = false ∧ (Instr.jarl 2#22 1).wf = true := by decide
theorem test_wf_long_odd_disp16 :
    (Instr.ldH 1#16 4 5).wf = false ∧ (Instr.ldW 1#16 4 5).wf = false ∧ (Instr.stH 5 1#16 4).wf = false ∧
      (Instr.stW 5 1#16 4).wf = false ∧ (Instr.ldW 2#16 4 5).wf = true := by decide
theorem test_wf_ilgop_subop_below_three :
    (Instr.ilgop 0 0 0 2 0).wf = false ∧ (Instr.ilgop 0 0 0 3 0).wf = true := by decide

/-! ### Decode: one word of each row, fields separated, the second half-word of a 32-bit word first (R62 to R72, R78, R79) -/

theorem test_decode_nop : decodeTableWord 16 0b0000000000000000 = some .nop := by decide
theorem test_decode_movReg : decodeTableWord 16 0b00111_000000_00110 = some (.movReg 6 7) := by decide
theorem test_decode_notReg : decodeTableWord 16 0b00111_000001_00110 = some (.notReg 6 7) := by decide
theorem test_decode_divh : decodeTableWord 16 0b00111_000010_00110 = some (.divh 6 7) := by decide
theorem test_decode_satsubr : decodeTableWord 16 0b00111_000100_00110 = some (.satsubr 6 7) := by decide
theorem test_decode_satsub : decodeTableWord 16 0b00111_000101_00110 = some (.satsub 6 7) := by decide
theorem test_decode_sataddReg : decodeTableWord 16 0b00111_000110_00110 = some (.sataddReg 6 7) := by decide
theorem test_decode_mulhReg : decodeTableWord 16 0b00111_000111_00110 = some (.mulhReg 6 7) := by decide
theorem test_decode_orReg : decodeTableWord 16 0b00111_001000_00110 = some (.orReg 6 7) := by decide
theorem test_decode_xorReg : decodeTableWord 16 0b00111_001001_00110 = some (.xorReg 6 7) := by decide
theorem test_decode_andReg : decodeTableWord 16 0b00111_001010_00110 = some (.andReg 6 7) := by decide
theorem test_decode_tst : decodeTableWord 16 0b00111_001011_00110 = some (.tst 6 7) := by decide
theorem test_decode_subr : decodeTableWord 16 0b00111_001100_00110 = some (.subr 6 7) := by decide
theorem test_decode_sub : decodeTableWord 16 0b00111_001101_00110 = some (.sub 6 7) := by decide
theorem test_decode_addReg : decodeTableWord 16 0b00111_001110_00110 = some (.addReg 6 7) := by decide
theorem test_decode_cmpReg : decodeTableWord 16 0b00111_001111_00110 = some (.cmpReg 6 7) := by decide
theorem test_decode_jmp : decodeTableWord 16 0b00000_000011_11111 = some (.jmp 31) := by decide
theorem test_decode_movImm : decodeTableWord 16 0b00111_010000_10011 = some (.movImm 0b10011#5 7) := by decide
theorem test_decode_sataddImm : decodeTableWord 16 0b00111_010001_10011 = some (.sataddImm 0b10011#5 7) := by decide
theorem test_decode_addImm : decodeTableWord 16 0b00111_010010_10011 = some (.addImm 0b10011#5 7) := by decide
theorem test_decode_cmpImm : decodeTableWord 16 0b00111_010011_10011 = some (.cmpImm 0b10011#5 7) := by decide
theorem test_decode_shrImm : decodeTableWord 16 0b00111_010100_10011 = some (.shrImm 0b10011#5 7) := by decide
theorem test_decode_sarImm : decodeTableWord 16 0b00111_010101_10011 = some (.sarImm 0b10011#5 7) := by decide
theorem test_decode_shlImm : decodeTableWord 16 0b00111_010110_10011 = some (.shlImm 0b10011#5 7) := by decide
theorem test_decode_mulhImm : decodeTableWord 16 0b00111_010111_10011 = some (.mulhImm 0b10011#5 7) := by decide
theorem test_decode_bv : decodeTableWord 16 0b10110_1011_010_0000 = some (.bv 0b10110_010_0#9) := by decide
theorem test_decode_bl : decodeTableWord 16 0b10110_1011_010_0001 = some (.bl 0b10110_010_0#9) := by decide
theorem test_decode_be : decodeTableWord 16 0b10110_1011_010_0010 = some (.be 0b10110_010_0#9) := by decide
theorem test_decode_bnh : decodeTableWord 16 0b10110_1011_010_0011 = some (.bnh 0b10110_010_0#9) := by decide
theorem test_decode_bn : decodeTableWord 16 0b10110_1011_010_0100 = some (.bn 0b10110_010_0#9) := by decide
theorem test_decode_br : decodeTableWord 16 0b10110_1011_010_0101 = some (.br 0b10110_010_0#9) := by decide
theorem test_decode_blt : decodeTableWord 16 0b10110_1011_010_0110 = some (.blt 0b10110_010_0#9) := by decide
theorem test_decode_ble : decodeTableWord 16 0b10110_1011_010_0111 = some (.ble 0b10110_010_0#9) := by decide
theorem test_decode_bnv : decodeTableWord 16 0b10110_1011_010_1000 = some (.bnv 0b10110_010_0#9) := by decide
theorem test_decode_bnl : decodeTableWord 16 0b10110_1011_010_1001 = some (.bnl 0b10110_010_0#9) := by decide
theorem test_decode_bne : decodeTableWord 16 0b10110_1011_010_1010 = some (.bne 0b10110_010_0#9) := by decide
theorem test_decode_bh : decodeTableWord 16 0b10110_1011_010_1011 = some (.bh 0b10110_010_0#9) := by decide
theorem test_decode_bp : decodeTableWord 16 0b10110_1011_010_1100 = some (.bp 0b10110_010_0#9) := by decide
theorem test_decode_bsa : decodeTableWord 16 0b10110_1011_010_1101 = some (.bsa 0b10110_010_0#9) := by decide
theorem test_decode_bge : decodeTableWord 16 0b10110_1011_010_1110 = some (.bge 0b10110_010_0#9) := by decide
theorem test_decode_bgt : decodeTableWord 16 0b10110_1011_010_1111 = some (.bgt 0b10110_010_0#9) := by decide
theorem test_decode_sldB : decodeTableWord 16 0b00111_0110_1000001 = some (.sldB 0b1000001#7 7) := by decide
theorem test_decode_sstB : decodeTableWord 16 0b00111_0111_1000001 = some (.sstB 7 0b1000001#7) := by decide
theorem test_decode_sldH : decodeTableWord 16 0b00111_1000_1000001 = some (.sldH 0b1000001_0#8 7) := by decide
theorem test_decode_sstH : decodeTableWord 16 0b00111_1001_1000001 = some (.sstH 7 0b1000001_0#8) := by decide
theorem test_decode_sldW : decodeTableWord 16 0b00111_1010_100001_0 = some (.sldW 0b100001_00#8 7) := by decide
theorem test_decode_sstW : decodeTableWord 16 0b00111_1010_100001_1 = some (.sstW 7 0b100001_00#8) := by decide
theorem test_decode_jr : decodeTableWord 32 0b001000000000011_0_00000_11110_100110 =
    some (.jr 0b100110_001000000000011_0#22) := by decide
theorem test_decode_jarl : decodeTableWord 32 0b001000000000011_0_00111_11110_100110 =
    some (.jarl 0b100110_001000000000011_0#22 7) := by decide
theorem test_decode_addi : decodeTableWord 32 0b1000000100100011_00111_110000_00110 = some (.addi 0x8123#16 6 7) := by decide
theorem test_decode_movea : decodeTableWord 32 0b1000000100100011_00111_110001_00110 = some (.movea 0x8123#16 6 7) := by decide
theorem test_decode_movhi : decodeTableWord 32 0b1000000100100011_00111_110010_00110 = some (.movhi 0x8123#16 6 7) := by decide
theorem test_decode_satsubi : decodeTableWord 32 0b1000000100100011_00111_110011_00110 =
    some (.satsubi 0x8123#16 6 7) := by decide
theorem test_decode_ori : decodeTableWord 32 0b1000000100100011_00111_110100_00110 = some (.ori 0x8123#16 6 7) := by decide
theorem test_decode_xori : decodeTableWord 32 0b1000000100100011_00111_110101_00110 = some (.xori 0x8123#16 6 7) := by decide
theorem test_decode_andi : decodeTableWord 32 0b1000000100100011_00111_110110_00110 = some (.andi 0x8123#16 6 7) := by decide
theorem test_decode_mulhi : decodeTableWord 32 0b1000000100100011_00111_110111_00110 = some (.mulhi 0x8123#16 6 7) := by decide
theorem test_decode_ldB : decodeTableWord 32 0b1000000100100011_00111_111000_00110 = some (.ldB 0x8123#16 6 7) := by decide
theorem test_decode_ldH : decodeTableWord 32 0b100000010010001_0_00111_111001_00110 = some (.ldH 0x8122#16 6 7) := by decide
theorem test_decode_ldW : decodeTableWord 32 0b100000010010001_1_00111_111001_00110 = some (.ldW 0x8122#16 6 7) := by decide
theorem test_decode_stB : decodeTableWord 32 0b1000000100100011_00111_111010_00110 = some (.stB 7 0x8123#16 6) := by decide
theorem test_decode_stH : decodeTableWord 32 0b100000010010001_0_00111_111011_00110 = some (.stH 7 0x8122#16 6) := by decide
theorem test_decode_stW : decodeTableWord 32 0b100000010010001_1_00111_111011_00110 = some (.stW 7 0x8122#16 6) := by decide
theorem test_decode_set1 : decodeTableWord 32 0b1000000100100011_00_011_111110_00110 = some (.set1 3#3 0x8123#16 6) := by decide
theorem test_decode_not1 : decodeTableWord 32 0b1000000100100011_01_011_111110_00110 = some (.not1 3#3 0x8123#16 6) := by decide
theorem test_decode_clr1 : decodeTableWord 32 0b1000000100100011_10_011_111110_00110 = some (.clr1 3#3 0x8123#16 6) := by decide
theorem test_decode_tst1 : decodeTableWord 32 0b1000000100100011_11_011_111110_00110 = some (.tst1 3#3 0x8123#16 6) := by decide
theorem test_decode_setf : decodeTableWord 32 0b00000_000000_00000_00111_111111_0_1011 = some (.setf .h 7) := by decide
theorem test_decode_ldsr : decodeTableWord 32 0b00000_000001_00000_00101_111111_00111 = some (.ldsr 7 5#5) := by decide
theorem test_decode_stsr : decodeTableWord 32 0b00000_000010_00000_00111_111111_00100 = some (.stsr 4#5 7) := by decide
theorem test_decode_shrReg : decodeTableWord 32 0b00000_000100_00000_00111_111111_00110 = some (.shrReg 6 7) := by decide
theorem test_decode_sarReg : decodeTableWord 32 0b00000_000101_00000_00111_111111_00110 = some (.sarReg 6 7) := by decide
theorem test_decode_shlReg : decodeTableWord 32 0b00000_000110_00000_00111_111111_00110 = some (.shlReg 6 7) := by decide
theorem test_decode_trap : decodeTableWord 32 0b00000_001000_00000_00000_111111_10010 = some (.trap 0b10010#5) := by decide
theorem test_decode_halt : decodeTableWord 32 0b00000_001001_00000_00000_111111_00000 = some .halt := by decide
theorem test_decode_reti : decodeTableWord 32 0b00000_001010_00000_00000_111111_00000 = some .reti := by decide
theorem test_decode_di : decodeTableWord 32 0b00000_001011_00000_000_00_111111_00000 = some .di := by decide
theorem test_decode_ei : decodeTableWord 32 0b00000_001011_00000_100_00_111111_00000 = some .ei := by decide
theorem test_decode_ilgop : decodeTableWord 32 0b10000_1111_0000011_10001_111111_00111 =
    some (.ilgop 0b10001#5 0b00111#5 0b10000#5 0b1111#4 0b0000011#7) := by decide

/-- JMP with a non-zero register field, the undefined entries of maps (e) and (f): unrecognised (R80 a, b, c). -/
theorem test_decode_unrecognised :
    decodeTableWord 16 0b00001_000011_11111 = none ∧ decodeTableWord 32 0b00000_000011_00000_00000_111111_00000 = none ∧
      decodeTableWord 32 0b00000_000111_00000_00000_111111_00000 = none ∧
      decodeTableWord 32 0b00000_001011_00000_001_00_111111_00000 = none := by decide
/-- A non-zero RFU bit of JR, SETF, LDSR, TRAP, HALT, EI: rejected (R81). -/
theorem test_decode_reserved :
    decodeTableWord 32 0b000000000000000_1_00000_11110_000000 = none ∧
      decodeTableWord 32 0b00000_000000_00000_00111_111111_1_0000 = none ∧
      decodeTableWord 32 0b00001_000001_00000_00101_111111_00111 = none ∧
      decodeTableWord 32 0b00000_001000_00000_00001_111111_00000 = none ∧
      decodeTableWord 32 0b00000_001001_00000_00000_111111_00001 = none ∧
      decodeTableWord 32 0b00000_001011_00001_100_00_111111_00000 = none := by decide

/-! ### Single steps: values from the tables R137, R146, R164, R176, R185, R199, R247 and the rules' own examples -/

/-- The reset state with a PSW and registers. -/
def start (p : Psw) (l : List (Reg × Word)) : State := l.foldl (fun s c => s.setReg c.1 c.2) { State.reset with psw := p }

/-- A part of the state after an instruction. -/
def after {α : Type} (i : Instr) (s : State) (f : State → α) : Option α :=
  match exec i s with
  | .next t => some (f t)
  | _ => none

/-- The reset state with a PSW, registers and bytes. -/
def withBytes (p : Psw) (l : List (Reg × Word)) (m : List Host.Cell) : State := { start p l with mem := m }

theorem test_movReg : after (.movReg 6 7) (start 0xFF [(6, 5)]) (fun t => (t.reg 7, t.psw, t.pc)) = some (5, 0xFF, 2) := by decide
theorem test_movImm_sign : after (.movImm 0b11111#5 5) (start 0 []) (fun t => t.reg 5) = some 0xFFFFFFFF := by decide
theorem test_mov_r0_discards : after (.movImm 0b11111#5 0) (start 0 []) (fun t => (t.reg 0, t.pc)) = some (0, 2) := by decide
theorem test_movhi : after (.movhi 0x1234#16 0 10) (start 0 []) (fun t => (t.reg 10, t.pc)) = some (0x12340000, 4) := by decide
theorem test_movea_negative : after (.movea 0xFFFF#16 6 7) (start 8 [(6, 0)]) (fun t => (t.reg 7, t.psw)) = some (0xFFFFFFFF, 8) := by
  decide
theorem test_addReg_overflow :
    after (.addReg 6 7) (start 0 [(6, 1), (7, 0x7FFFFFFF)]) (fun t => (t.reg 7, t.psw)) = some (0x80000000, 0b0110) := by decide
theorem test_addReg_both : after (.addReg 6 7) (start 0 [(6, 0x80000000), (7, 0x80000000)]) (fun t => (t.reg 7, t.psw)) =
    some (0, 0b1101) := by decide
theorem test_addImm_carry : after (.addImm 0b11111#5 6) (start 0 [(6, 1)]) (fun t => (t.reg 6, t.psw)) = some (0, 0b1001) := by decide
theorem test_addi : after (.addi 0xFFFF#16 6 7) (start 0x10 [(6, 0x80000000)]) (fun t => (t.reg 7, t.psw)) =
    some (0x7FFFFFFF, 0x1C) := by decide
theorem test_sub_borrow : after (.sub 6 7) (start 0 [(6, 1), (7, 0)]) (fun t => (t.reg 7, t.psw)) = some (0xFFFFFFFF, 0b1010) := by
  decide
theorem test_sub_overflow : after (.sub 6 7) (start 0 [(6, 0xFFFFFFFF), (7, 0x7FFFFFFF)]) (fun t => (t.reg 7, t.psw)) =
    some (0x80000000, 0b1110) := by decide
theorem test_subr : after (.subr 0 7) (start 0 [(7, 0x80000000)]) (fun t => (t.reg 7, t.psw)) = some (0x80000000, 0b1110) := by decide
theorem test_cmpReg_equal : after (.cmpReg 6 7) (start 0 [(6, 5), (7, 5)]) (fun t => (t.reg 7, t.psw)) = some (5, 0b0001) := by decide
theorem test_cmpImm : after (.cmpImm 0b11111#5 5) (start 0 []) (fun t => (t.reg 5, t.psw)) = some (0, 0b1000) := by decide
theorem test_mulhReg : after (.mulhReg 6 7) (start 0xF [(6, 0x8000), (7, 0xFFFF8000)]) (fun t => (t.reg 7, t.psw)) =
    some (0x40000000, 0xF) := by decide
theorem test_mulhReg_negative : after (.mulhReg 6 7) (start 0 [(6, 2), (7, 0x1FFFF)]) (fun t => t.reg 7) = some 0xFFFFFFFE := by decide
theorem test_mulhImm : after (.mulhImm 0b10000#5 7) (start 0 [(7, 0x7FFF)]) (fun t => t.reg 7) = some 0xFFF80010 := by decide
theorem test_mulhImm_high_ignored : after (.mulhImm 3#5 6) (start 0 [(6, 0x12345)]) (fun t => t.reg 6) = some 0x69CF := by decide
theorem test_mulhi : after (.mulhi 0xFFFF#16 6 7) (start 0 [(6, 0x10002)]) (fun t => (t.reg 7, t.pc)) = some (0xFFFFFFFE, 4) := by decide
theorem test_divh_rounds_to_zero : after (.divh 6 7) (start 8 [(6, 2), (7, 0xFFFFFFF9)]) (fun t => (t.reg 7, t.psw)) =
    some (0xFFFFFFFD, 0b1010) := by decide
theorem test_divh_overflow : after (.divh 6 7) (start 0 [(6, 0xFFFF), (7, 0x80000000)]) (fun t => (t.reg 7, t.psw)) =
    some (0x80000000, 0b0110) := by decide
theorem test_setf_true : after (.setf .z 10) (start 1 []) (fun t => (t.reg 10, t.psw)) = some (1, 1) := by decide
theorem test_setf_false : after (.setf .gt 10) (start 2 [(10, 7)]) (fun t => t.reg 10) = some 0 := by decide
theorem test_sataddReg : after (.sataddReg 6 7) (start 0 [(6, 0x20), (7, 0x7FFFFFF0)]) (fun t => (t.reg 7, t.psw)) =
    some (0x7FFFFFFF, 0b10100) := by decide
theorem test_sataddReg_sat_kept : after (.sataddReg 6 7) (start 0x10 [(6, 0xFFFFFFFF), (7, 1)]) (fun t => (t.reg 7, t.psw)) =
    some (0, 0b11001) := by decide
theorem test_sataddImm : after (.sataddImm 0b11111#5 7) (start 0 [(7, 0x80000000)]) (fun t => (t.reg 7, t.psw)) =
    some (0x80000000, 0b11110) := by decide
theorem test_satsub : after (.satsub 6 7) (start 0 [(6, 0xFFFFFFFF), (7, 0x7FFFFFFF)]) (fun t => (t.reg 7, t.psw)) =
    some (0x7FFFFFFF, 0b11100) := by decide
theorem test_satsubi : after (.satsubi 0x0010#16 6 7) (start 0 [(6, 0x80000005)]) (fun t => (t.reg 7, t.psw)) =
    some (0x80000000, 0b10110) := by decide
theorem test_satsubi_in_range : after (.satsubi 0x8000#16 0 7) (start 0 []) (fun t => (t.reg 7, t.psw)) = some (0x8000, 0b1000) := by decide
theorem test_satsubr : after (.satsubr 0 7) (start 0 [(7, 0x80000000)]) (fun t => (t.reg 7, t.psw)) = some (0x7FFFFFFF, 0b11100) := by
  decide
theorem test_tst : after (.tst 6 7) (start 0xC [(6, 1), (7, 2)]) (fun t => (t.reg 7, t.psw)) = some (2, 0b1001) := by decide
theorem test_orReg : after (.orReg 6 7) (start 0 [(6, 1), (7, 0x80000000)]) (fun t => (t.reg 7, t.psw)) = some (0x80000001, 0b0010) := by
  decide
theorem test_andReg : after (.andReg 6 7) (start 4 [(6, 0xFFFF), (7, 0xFFFF0000)]) (fun t => (t.reg 7, t.psw)) = some (0, 0b0001) := by
  decide
theorem test_xorReg : after (.xorReg 7 7) (start 8 [(7, 0x1234)]) (fun t => (t.reg 7, t.psw)) = some (0, 0b1001) := by decide
theorem test_notReg : after (.notReg 6 7) (start 0xC [(6, 0), (7, 3)]) (fun t => (t.reg 7, t.psw)) = some (0xFFFFFFFF, 0b1010) := by decide
theorem test_ori : after (.ori 0x8000#16 0 7) (start 0 []) (fun t => (t.reg 7, t.psw)) = some (0x8000, 0) := by decide
theorem test_andi : after (.andi 0xFFFF#16 6 7) (start 2 [(6, 0xFFFFFFFF)]) (fun t => (t.reg 7, t.psw)) = some (0xFFFF, 0) := by decide
theorem test_xori : after (.xori 0xFFFF#16 6 7) (start 0 [(6, 0xFFFFFFFF)]) (fun t => (t.reg 7, t.psw)) = some (0xFFFF0000, 0b0010) := by
  decide
theorem test_shlReg_count_32 : after (.shlReg 6 7) (start 0xC [(6, 0x20), (7, 0x80000000)]) (fun t => (t.reg 7, t.psw)) =
    some (0x80000000, 0b0010) := by decide
theorem test_shlImm_31 : after (.shlImm 31#5 7) (start 0 [(7, 3)]) (fun t => (t.reg 7, t.psw)) = some (0x80000000, 0b1010) := by decide
theorem test_shrReg : after (.shrReg 6 7) (start 0 [(6, 0xFF), (7, 0xC0000000)]) (fun t => (t.reg 7, t.psw)) = some (1, 0b1000) := by
  decide
theorem test_shrImm : after (.shrImm 1#5 6) (start 0 [(6, 0x80000001)]) (fun t => (t.reg 6, t.psw)) = some (0x40000000, 0b1000) := by
  decide
theorem test_sarReg : after (.sarReg 6 7) (start 0 [(6, 4), (7, 0xFFFFFF85)]) (fun t => (t.reg 7, t.psw)) = some (0xFFFFFFF8, 0b0010) := by
  decide
theorem test_sarImm_31 : after (.sarImm 31#5 7) (start 0 [(7, 0x7FFFFFFF)]) (fun t => (t.reg 7, t.psw)) = some (0, 0b1001) := by decide
theorem test_jmp_drops_bits : after (.jmp 31) (start 0 [(31, 0xFF001235)]) (fun t => t.pc) = some 0x001234 := by decide
theorem test_jr_backward : after (.jr 0x3FFFFE#22) { start 0 [] with pc := 0x1000 } (fun t => t.pc) = some 0xFFE := by decide
theorem test_jarl : after (.jarl 0x100#22 31) { start 0 [] with pc := 0x200 } (fun t => (t.reg 31, t.pc)) = some (0x204, 0x300) := by decide
theorem test_jarl_link_wraps : after (.jarl 0x4#22 31) { start 0 [] with pc := 0xFFFFFC } (fun t => (t.reg 31, t.pc)) =
    some (0, 0) := by decide
theorem test_be_taken : after (.be 8#9) { start 1 [] with pc := 0x1000 } (fun t => t.pc) = some 0x1008 := by decide
theorem test_bne_not_taken : after (.bne 0b111111010#9) { start 1 [] with pc := 0x1000 } (fun t => t.pc) = some 0x1002 := by decide
theorem test_bne_backward : after (.bne 0b111111010#9) { start 0 [] with pc := 0x1000 } (fun t => t.pc) = some 0xFFA := by decide
/-- The sixteen branches on PSW = 00h and on CY, OV, S, Z, SAT alone: which are taken (R171). -/
theorem test_branches_taken :
    ([0, 8, 4, 2, 1, 16].map fun p => ([Instr.bv 8, .bl 8, .be 8, .bnh 8, .bn 8, .br 8, .blt 8, .ble 8, .bnv 8, .bnl 8, .bne 8,
      .bh 8, .bp 8, .bsa 8, .bge 8, .bgt 8].map fun i => after i (start p []) (fun t => t.pc == 8))) =
    ([[0,0,0,0,0,1,0,0,1,1,1,1,1,0,1,1], [0,1,0,1,0,1,0,0,1,0,1,0,1,0,1,1], [1,0,0,0,0,1,1,1,0,1,1,1,1,0,0,0],
      [0,0,0,0,1,1,1,1,1,1,1,1,0,0,0,0], [0,0,1,1,0,1,0,1,1,1,0,0,1,0,1,0], [0,0,0,0,0,1,0,0,1,1,1,1,1,1,1,1]].map
      fun l => l.map fun b : Nat => some (b == 1)) := by decide
theorem test_sldB : after (.sldB 5#7 7) (withBytes 0 [(30, 0x1000)] [(0x1005, 0x80)]) (fun t => (t.reg 7, t.pc)) =
    some (0xFFFFFF80, 2) := by decide
theorem test_sldH_odd_base : after (.sldH 2#8 7) (withBytes 0 [(30, 0x1001)] [(0x1002, 0x34), (0x1003, 0x92)]) (fun t => t.reg 7) =
    some 0xFFFF9234 := by decide
theorem test_sldW : after (.sldW 4#8 7) (withBytes 0 [(30, 0x1003)] [(0x1004, 0x44), (0x1005, 0x33), (0x1006, 0x22), (0x1007, 0x11)])
    (fun t => t.reg 7) = some 0x11223344 := by decide
theorem test_ldB_wraps : after (.ldB 1#16 6 7) (withBytes 0 [(6, 0xFFFFFFFF)] [(0, 0x7F)]) (fun t => (t.reg 7, t.pc)) =
    some (0x7F, 4) := by decide
theorem test_ldH_masked : after (.ldH 2#16 6 6) (withBytes 0 [(6, 0x1001)] [(0x1002, 0x34), (0x1003, 0x12)]) (fun t => t.reg 6) =
    some 0x1234 := by decide
theorem test_ldW_masked : after (.ldW 2#16 0 5) (withBytes 0 [] [(0, 0x78), (1, 0x56), (3, 0x12)]) (fun t => t.reg 5) =
    some 0x12005678 := by decide
theorem test_sstB : after (.sstB 7 5#7) (withBytes 0 [(30, 0x1000), (7, 0x12345678)] []) (fun t => t.mem) = some [(0x1005, 0x78)] := by
  decide
theorem test_sstH : after (.sstH 7 2#8) (withBytes 0 [(30, 0x1001), (7, 0x12345678)] []) (fun t => t.mem) =
    some [(0x1002, 0x78), (0x1003, 0x56)] := by decide
theorem test_sstW : after (.sstW 7 4#8) (withBytes 0 [(30, 0x1002), (7, 0x11223344)] []) (fun t => t.mem) =
    some [(0x1004, 0x44), (0x1005, 0x33), (0x1006, 0x22), (0x1007, 0x11)] := by decide
theorem test_stB_blank_removes : after (.stB 0 0#16 6) (withBytes 0 [(6, 0x1000)] [(0x1000, 7)]) (fun t => t.mem) = some [] := by decide
theorem test_stH : after (.stH 7 0xFFFE#16 6) (withBytes 0 [(6, 0x1003), (7, 0x8001)] []) (fun t => t.mem) =
    some [(0x1000, 0x01), (0x1001, 0x80)] := by decide
theorem test_stW_masked : after (.stW 7 2#16 6) (withBytes 0 [(6, 0x1000), (7, 0x01000002)] []) (fun t => t.mem) =
    some [(0x1000, 0x02), (0x1003, 0x01)] := by decide
theorem test_set1 : after (.set1 3#3 0#16 10) (withBytes 0xE [(10, 0x1000)] []) (fun t => (t.mem, t.psw)) =
    some ([(0x1000, 8)], 0xF) := by decide
theorem test_clr1 : after (.clr1 7#3 0#16 10) (withBytes 0xF [(10, 0x1000)] [(0x1000, 0xFF)]) (fun t => (t.mem, t.psw)) =
    some ([(0x1000, 0x7F)], 0xE) := by decide
theorem test_not1 : after (.not1 0#3 0#16 10) (withBytes 0 [(10, 0x1000)] [(0x1000, 0xA5)]) (fun t => (t.mem, t.psw)) =
    some ([(0x1000, 0xA4)], 0) := by decide
theorem test_not1_sets : after (.not1 1#3 0#16 10) (withBytes 0 [(10, 0x1000)] [(0x1000, 0xA5)]) (fun t => (t.mem, t.psw)) =
    some ([(0x1000, 0xA7)], 1) := by decide
theorem test_tst1 : after (.tst1 6#3 0#16 10) (withBytes 0 [(10, 0x1000)] [(0x1000, 0x80)]) (fun t => (t.mem, t.psw, t.pc)) =
    some ([(0x1000, 0x80)], 1, 4) := by decide
theorem test_ldsr_psw : after (.ldsr 6 5#5) (start 0 [(6, 0xFFFFFFFF)]) (fun t => t.psw) = some 0xFF := by decide
theorem test_ldsr_eipc : after (.ldsr 6 0#5) (start 0 [(6, 0x12345678)]) (fun t => (t.eipc, t.psw)) = some (0x345678, 0) := by decide
theorem test_stsr_ecr : after (.stsr 4#5 7) { start 0 [] with fecc := 0x0010, eicc := 0x0052 } (fun t => t.reg 7) =
    some 0x00100052 := by decide
theorem test_stsr_psw : after (.stsr 5#5 7) (start 0xA5 []) (fun t => (t.reg 7, t.pc)) = some (0xA5, 4) := by decide
theorem test_trap : after (.trap 0x12#5) { start 1 [] with pc := 0x1000, fecc := 7 }
    (fun t => (t.eipc, t.eipsw, t.fecc, t.eicc, t.psw, t.pc)) = some (0x1004, 1, 7, 0x52, 0x61, 0x50) := by decide
theorem test_trap_low_vector : after (.trap 0xF#5) (start 0x80 []) (fun t => (t.eicc, t.psw, t.pc)) = some (0x4F, 0xE0, 0x40) := by decide
theorem test_reti_from_trap : after .reti { start 0x60 [] with eipc := 0x1005, eipsw := 1 } (fun t => (t.pc, t.psw)) =
    some (0x1004, 1) := by decide
theorem test_reti_from_nmi : after .reti { start 0xA0 [] with eipc := 0x1004, fepc := 0x44, fepsw := 0x60 } (fun t => (t.pc, t.psw)) =
    some (0x44, 0x60) := by decide
theorem test_ilgop : after (.ilgop 0 0 0 3 0) { start 0x20 [] with pc := 0x3000 }
    (fun t => (t.eipc, t.eipsw, t.eicc, t.psw, t.pc)) = some (0x3004, 0x20, 0x60, 0x60, 0x60) := by decide
theorem test_halt : after .halt (start 0x20 []) (fun t => (t.halted, t.pc, t.psw)) = some (true, 4, 0x20) := by decide
theorem test_di : after .di (start 0x0F []) (fun t => (t.psw, t.pc)) = some (0x2F, 4) := by decide
theorem test_ei : after .ei (start 0xFF []) (fun t => (t.psw, t.pc)) = some (0xDF, 4) := by decide
theorem test_nop : after .nop { start 0xFF [] with pc := 0xFFFFFE } (fun t => (t.pc, t.psw)) = some (0, 0xFF) := by decide

/-! ### Steps -/

/-- A part of the state after a step. -/
def afterStep {α : Type} (s : State) (f : State → α) : Option α :=
  match step s with
  | .next t => some (f t)
  | _ => none

/-- The state in which a maskable request with the code and handler of R247 (b) stands at the next boundary. -/
def requested (p : Psw) : State :=
  { start p [] with
    pc := 0x2000
    inputs := [{ Input.quiet with intReq := some { code := 0x0080, handler := 0x000080 } }] }

theorem test_step_runs_fetched_word : afterStep (State.reset.withFetchWord 32 0x12345640) (fun t => (t.reg 10, t.pc)) =
    some (0x12340000, 4) := by decide
theorem test_step_reset_memory_is_nop : afterStep State.reset (fun t => (t.pc, t.psw)) = some (2, 0x20) := by decide
theorem test_step_maskable_entry : afterStep (requested 0x08) (fun t => (t.eipc, t.eipsw, t.eicc, t.psw, t.pc)) =
    some (0x2000, 0x08, 0x80, 0x28, 0x80) := by decide
theorem test_step_maskable_masked : afterStep (requested 0x28) (fun t => (t.eicc, t.psw, t.pc)) = some (0, 0x28, 0x2002) := by decide
theorem test_step_nmi_in_trap_handler :
    afterStep { start 0x60 [] with pc := 0x44, eipc := 0x1004, inputs := [{ Input.quiet with nmiReq := true }] }
      (fun t => (t.fepc, t.fepsw, t.fecc, t.psw, t.pc, t.eipc)) = some (0x44, 0x60, 0x10, 0xA0, 0x10, 0x1004) := by decide
theorem test_step_halt_waits : afterStep { start 0x20 [] with halted := true, pc := 8 } (fun t => (t.halted, t.pc)) = some (true, 8) := by
  decide
theorem test_step_reset_input :
    afterStep { start 0xFF [(6, 1)] with pc := 8, eicc := 5, halted := true, inputs := [{ Input.quiet with reset := true }] }
      (fun t => (t.pc, t.psw, t.eicc, t.halted)) = some (0, 0x20, 0, false) := by decide

/-! ### Witnesses: the hypotheses of every statement are met -/

theorem witness_DecodeOfEncode : (Instr.jarl 0x3FFFFE#22 31).wf = true ∧ (Instr.ilgop 31 31 31 15 127).wf = true := by decide
theorem witness_EncodeOfDecode : decode [0xC6, 0x39, 7] = .ok (.addReg 6 7, [7]) := by rfl
theorem witness_LengthFromFirstHalfWord :
    decode [0xC6, 0x39] = .ok (.addReg 6 7, []) ∧ decode [0x24, 0x37, 0x01, 0x00] = .ok (.ldW 0 4 6, []) := ⟨rfl, rfl⟩
theorem witness_IllegalOpCodePattern :
    (0x07E0#16).extractLsb' 5 6 = 0b111111#6 ∧ 3 ≤ ((0x0180#16).extractLsb' 7 4).toNat ∧
      decode (halfBytes 0x07E0 ++ halfBytes 0x0180) = .ok (.ilgop 0 0 0 3 0, []) := ⟨by decide, by decide, rfl⟩
theorem witness_CodesNotRecognised :
    decode (halfBytes 0x07E0 ++ halfBytes 0x0060) = .error .unrecognised ∧
      decode (halfBytes 0x27E0 ++ halfBytes 0x0160) = .error .unrecognised ∧
      decode (halfBytes 0x0860 ++ halfBytes 0x0000) = .error .unrecognised := ⟨rfl, rfl, rfl⟩
theorem witness_ReservedBitsRejected :
    decode (halfBytes 0x0780 ++ halfBytes 0x0001) = .error .reservedField ∧
      decode (halfBytes 0x07F0 ++ halfBytes 0x0000) = .error .reservedField ∧
      decode (halfBytes 0x07E0 ++ halfBytes 0x0121) = .error .reservedField := ⟨rfl, rfl, rfl⟩

/-- A step from a well-formed state, and its next state. -/
theorem witness_StepKeepsWellFormed : State.reset.wf = true ∧ ∃ t, step State.reset = .next t := ⟨by decide, _, rfl⟩
/-- A step that sets SAT by SATADD, steps that clear it by LDSR, RETI and the reset input, and one whose first instruction is a
saturated one. -/
theorem witness_SatIsCumulative :
    (∃ t, step ((start 0 [(6, 1), (7, 0x7FFFFFFF)]).withFetchWord 16 0x38C6) = .next t ∧ Psw.sat t.psw = true ∧ Psw.ov t.psw = true) ∧
      RunsInstruction ((start 0 [(6, 1), (7, 0x7FFFFFFF)]).withFetchWord 16 0x38C6) (.sataddReg 6 7) ∧ Saturating (.sataddReg 6 7) ∧
      (∃ t, step ((start 0x10 []).withFetchWord 32 0x00202FE6) = .next t ∧ Psw.sat t.psw = false) ∧
      RunsInstruction ((start 0x10 []).withFetchWord 32 0x00202FE6) (.ldsr 6 5#5) ∧
      (∃ t, step ((start 0x10 []).withFetchWord 32 0x014007E0) = .next t ∧ Psw.sat t.psw = false) ∧
      RunsInstruction ((start 0x10 []).withFetchWord 32 0x014007E0) .reti ∧
      (∃ t, step { start 0x10 [] with inputs := [{ Input.quiet with reset := true }] } = .next t ∧ Psw.sat t.psw = false) :=
  ⟨⟨_, rfl, by decide, by decide⟩, ⟨by unfold NothingAccepted; decide, rfl, _, _, rfl, rfl⟩, .inl ⟨6, 7, rfl⟩, ⟨_, rfl, by decide⟩,
    ⟨by unfold NothingAccepted; decide, rfl, _, _, rfl, rfl⟩, ⟨_, rfl, by decide⟩,
    ⟨by unfold NothingAccepted; decide, rfl, _, _, rfl, rfl⟩, ⟨_, rfl, by decide⟩⟩
theorem witness_InterruptFlagWriters :
    (∃ t, exec .ei (start 0x20 []) = .next t ∧ Psw.id t.psw ≠ Psw.id (start 0x20 []).psw) ∧
      (∃ t, exec (.trap 0#5) (start 0 []) = .next t ∧ Psw.ep t.psw ≠ Psw.ep (start 0 []).psw ∧
        Psw.id t.psw ≠ Psw.id (start 0 []).psw) ∧
      ¬ LoadsSysReg .ei 5#5 ∧ ¬ LoadsSysReg (.trap 0#5) 5#5 :=
  ⟨⟨_, rfl, by decide⟩, ⟨_, rfl, by decide, by decide⟩, by simp [LoadsSysReg], by simp [LoadsSysReg]⟩
theorem witness_SystemRegisterWriters :
    (∃ t, exec (.trap 0#5) { start 1 [] with pc := 8 } = .next t ∧ t.eicc ≠ 0 ∧ t.eipc ≠ 0 ∧ t.eipsw ≠ 0) ∧
      (∃ t, exec (.ldsr 6 2#5) (start 0 [(6, 8)]) = .next t ∧ t.fepc ≠ 0) ∧
      (∃ t, exec (.ldsr 6 3#5) (start 0 [(6, 8)]) = .next t ∧ t.fepsw ≠ 0) :=
  ⟨⟨_, rfl, by decide, by decide, by decide⟩, ⟨_, rfl, by decide⟩, ⟨_, rfl, by decide⟩⟩
theorem witness_DataMemoryUsers :
    (∃ t, exec (.stB 7 0#16 6) (start 0 [(7, 1)]) = .next t ∧ t.mem ≠ (start 0 [(7, 1)]).mem) ∧
      (∃ t, exec (.ldB 0#16 6 7) (start 0 [(6, 0xFFFFF000)]) = .next t ∧ t.events ≠ []) :=
  ⟨⟨_, rfl, by decide⟩, ⟨_, rfl, by decide⟩⟩

theorem witness_RomKeepsItsContents :
    (∃ t, step { State.reset with product := { State.reset.product with romSize := 0x100 } } = .next t) ∧
      inRom { State.reset.product with romSize := 0x100 } 0xFF = true := ⟨⟨_, rfl⟩, by decide⟩

theorem witness_ConditionsOrderComparedOperands :
    (∃ t, exec (.cmpReg 6 7) (start 0 [(6, 0x80000000), (7, 0x7FFFFFFF)]) = .next t) ∧
      ∃ t, exec (.cmpImm 0b10000#5 7) (start 0 [(7, 0x7FFFFFFF)]) = .next t := ⟨⟨_, rfl⟩, ⟨_, rfl⟩⟩
theorem witness_DivhWritesQuotient :
    s16 ((start 0 [(6, 0xFFFF), (7, 0x80000000)]).reg 6) = -1 ∧ (start 0 [(6, 0xFFFF), (7, 0x80000000)]).reg 7 = 0x80000000 ∧
      s16 ((start 0 [(6, 1), (7, 0x80000000)]).reg 6) = 1 ∧ s16 ((start 0 [(6, 0xFFFF), (7, 0x80000001)]).reg 6) ≠ 0 := by decide
theorem witness_DivhByZero : s16 ((start 0 [(6, 0xFFFF0000), (7, 5)]).reg 6) = 0 := by decide

/-- For every condition but `t` there is a PSW on which it holds and one on which it does not; `t` always holds. -/
theorem witness_conditions : ∀ cond : Cond, (∃ p, CondTrue p cond) ∧ (cond = .t ∨ ∃ p, ¬ CondTrue p cond)
  | .v => ⟨⟨4, by unfold CondTrue; decide⟩, .inr ⟨0, by unfold CondTrue; decide⟩⟩
  | .c => ⟨⟨8, by unfold CondTrue; decide⟩, .inr ⟨0, by unfold CondTrue; decide⟩⟩
  | .z => ⟨⟨1, by unfold CondTrue; decide⟩, .inr ⟨0, by unfold CondTrue; decide⟩⟩
  | .nh => ⟨⟨9, by unfold CondTrue; decide⟩, .inr ⟨0, by unfold CondTrue; decide⟩⟩
  | .s => ⟨⟨2, by unfold CondTrue; decide⟩, .inr ⟨0, by unfold CondTrue; decide⟩⟩
  | .t => ⟨⟨0, trivial⟩, .inl rfl⟩
  | .lt => ⟨⟨2, by unfold CondTrue; decide⟩, .inr ⟨6, by unfold CondTrue; decide⟩⟩
  | .le => ⟨⟨1, by unfold CondTrue; decide⟩, .inr ⟨6, by unfold CondTrue; decide⟩⟩
  | .nv => ⟨⟨0, by unfold CondTrue; decide⟩, .inr ⟨4, by unfold CondTrue; decide⟩⟩
  | .nc => ⟨⟨0, by unfold CondTrue; decide⟩, .inr ⟨8, by unfold CondTrue; decide⟩⟩
  | .nz => ⟨⟨0, by unfold CondTrue; decide⟩, .inr ⟨1, by unfold CondTrue; decide⟩⟩
  | .h => ⟨⟨0, by unfold CondTrue; decide⟩, .inr ⟨8, by unfold CondTrue; decide⟩⟩
  | .ns => ⟨⟨0, by unfold CondTrue; decide⟩, .inr ⟨2, by unfold CondTrue; decide⟩⟩
  | .sa => ⟨⟨16, by unfold CondTrue; decide⟩, .inr ⟨0, by unfold CondTrue; decide⟩⟩
  | .ge => ⟨⟨6, by unfold CondTrue; decide⟩, .inr ⟨4, by unfold CondTrue; decide⟩⟩
  | .gt => ⟨⟨6, by unfold CondTrue; decide⟩, .inr ⟨7, by unfold CondTrue; decide⟩⟩
/-- Counts 0 and 31, from a register and from an immediate. -/
theorem witness_ShiftsWriteResultAndFlags :
    ∀ n, n = 0 ∨ n = 31 → ∃ (w : Word) (imm5 : BitVec 5) (v left right arith : Word),
      v = (start 0 [(6, w), (7, 0x80000003)]).reg 7 ∧ left = BitVec.ofNat 32 (v.toNat * 2 ^ n) ∧
        right = BitVec.ofNat 32 (v.toNat / 2 ^ n) ∧ arith = BitVec.ofInt 32 (Int.fdiv v.toInt (2 ^ n)) ∧
        n = ((start 0 [(6, w), (7, 0x80000003)]).reg 6).toNat % 32 ∧ n = imm5.toNat := by
  rintro n (rfl | rfl)
  · exact ⟨0x20, 0, _, _, _, _, rfl, rfl, rfl, rfl, by decide, by decide⟩
  · exact ⟨0xFF, 31, _, _, _, _, rfl, rfl, rfl, rfl, by decide, by decide⟩

theorem witness_ByteOrderIsLittleEndian :
    3 < Width.bytes .word ∧ Memory.wf [(0xFFFFFFFF, 1)] = true ∧ 0xFFFFFFFC + Width.bytes .word ≤ 4294967296 := by decide
theorem witness_AccessesAreAligned : ∃ d t u, State.load .word 0x1003 State.reset = .ok (d, t) ∧
    isPeripheral (Width.word.align 0x1003).toNat = false ∧ 3 < Width.word.bytes ∧
    State.store .word 0x1003 5 State.reset = .ok u := ⟨_, _, _, rfl, rfl, by decide, rfl⟩

/-- Base registers at an address, for both addressing types; displacements of 0 leave it. -/
def based (a : Word) : State := start 0x20 [(30, a), (10, a), (7, 0x11223344)]

/-- The map of a product with ROM 0000h to 00FFh, external memory 1000h to 10FFh and RAM FFFFEF00h to FFFFEFFFh. -/
def smallMap : Config.Product := { romSize := 0x100, ramSize := 0x100, external := [{ base := 0x1000, size := 0x100 }] }

theorem witness_addresses (a : Word) (w : Width) :
    w.align ((based a).reg 30 + (0#7).zeroExtend 32) = w.align a ∧ w.align ((based a).reg 30 + (0#8).zeroExtend 32) = w.align a ∧
      w.align ((based a).reg 10 + (0#16).signExtend 32) = w.align a := by
  have h30 : (based a).reg 30 = a := rfl
  have h10 : (based a).reg 10 = a := rfl
  simp [h30, h10]
/-- The last bytes below the peripheral area and the first bytes of memory, for each width: readable and writable. -/
theorem witness_LoadsReadMemory :
    ∀ w : Width, ReadableAt (based 0xFFFFEFFF) w (w.align 0xFFFFEFFF) ∧ ReadableAt (based 3) w (w.align 3) := by
  intro w
  cases w <;> exact ⟨⟨by decide, by decide⟩, ⟨by decide, by decide⟩⟩
theorem witness_LoadsReadPeripherals :
    ∀ w : Width, isPeripheral (w.align 0xFFFFF000).toNat = true ∧ isPeripheral (w.align 0xFFFFFFFF).toNat = true := by
  intro w
  cases w <;> decide
theorem witness_StoresWriteMemory :
    ∀ w : Width, WritableAt (based 0xFFFFEFFF) w (w.align 0xFFFFEFFF) ∧ WritableAt (based 3) w (w.align 3) ∧
      Memory.wf (based 3).mem = true := by
  intro w
  cases w <;> exact ⟨⟨by decide, by decide⟩, ⟨by decide, by decide⟩, by decide⟩
theorem witness_AccessesOutsideTheMapStop :
    ∀ w : Width, UnmappedAt { based 0x100 with product := smallMap } w (w.align 0x100) ∧
      UnmappedAt { based 0xFFFFEEFF with product := smallMap } w (w.align 0xFFFFEEFF) ∧
      TouchesRomAt { based 0xFF with product := smallMap } w (w.align 0xFF) := by
  intro w
  cases w <;> exact ⟨⟨by decide, 0, by decide, by decide⟩, ⟨by decide, 0, by decide, by decide⟩, ⟨by decide, by decide⟩, 0, by decide,
    by decide⟩
/-- Accesses that stop (a store into ROM, a store and a load off the map) and the same instructions at an address where they complete; a
system register that stops and one that does not. -/
theorem witness_InstructionsRunToTheirEnd :
    let at_ (a : Word) : State := { based a with product := smallMap }
    StoresAt (.stB 7 0#16 10) (at_ 0xFF) .byte 0xFF ∧ TouchesRomAt (at_ 0xFF) .byte 0xFF ∧
      StoresAt (.stB 7 0#16 10) (at_ 0x100) .byte 0x100 ∧ UnmappedAt (at_ 0x100) .byte 0x100 ∧
      Safe (exec (.stB 7 0#16 10) (at_ 0x1000)) ∧
      ReadsAt (.ldB 0#16 10 7) (at_ 0x1100) .byte 0x1100 ∧ UnmappedAt (at_ 0x1100) .byte 0x1100 ∧
      Safe (exec (.ldB 0#16 10 7) (at_ 0x10FF)) ∧ LoadsSysReg (.ldsr 7 4#5) 4#5 ∧ Safe (exec (.ldsr 7 5#5) (at_ 0)) :=
  ⟨.inr (.inr (.inr (.inl ⟨_, _, _, rfl, rfl, rfl⟩))), ⟨⟨by decide, by decide⟩, 0, by decide, by decide⟩,
    .inr (.inr (.inr (.inl ⟨_, _, _, rfl, rfl, rfl⟩))), ⟨by decide, 0, by decide, by decide⟩, ⟨_, rfl⟩,
    .inr (.inr (.inr (.inl ⟨_, _, _, rfl, rfl, rfl⟩))), ⟨by decide, 0, by decide, by decide⟩, ⟨_, rfl⟩,
    ⟨_, rfl⟩, ⟨_, rfl⟩⟩
theorem witness_BitInstructions :
    WritableAt (based 0xFFFFEFFF) .byte 0xFFFFEFFF ∧ Memory.wf (based 0xFFFFEFFF).mem = true ∧
      ReadableAt { based 0xFF with product := smallMap } .byte 0xFF ∧ isPeripheral (0xFFFFF000#32).toNat = true :=
  ⟨⟨by decide, by decide⟩, by decide, ⟨by decide, by decide⟩, by decide⟩

theorem witness_ReservedSystemRegistersRefused : 6 ≤ (6#5).toNat ∧ 6 ≤ (31#5).toNat := by decide
theorem witness_TrapTakesException : Psw.ep (start 0xE0 []).psw = true := by decide
theorem witness_RetiRestores :
    (Psw.ep 0xA0 = false ∧ Psw.np 0xA0 = true) ∧ Psw.ep 0xE0 = true ∧ Psw.np 0x20 = false := by decide
theorem witness_RetiUndoesException :
    (∃ t, exec (.trap 31#5) (start 0x80 []) = .next t) ∧ ExceptionInstr (.trap 31#5) ∧
      (∃ t, exec (.ilgop 0 0 0 15 0) (start 0 []) = .next t) ∧ ExceptionInstr (.ilgop 0 0 0 15 0) :=
  ⟨⟨_, rfl⟩, .inl ⟨_, rfl⟩, ⟨_, rfl⟩, .inr ⟨_, _, _, _, _, rfl⟩⟩

/-- A state at whose next boundary the inputs of the arguments stand. -/
def facing (p : Psw) (halted : Bool) (inp : Input) : State := { start p [] with halted := halted, inputs := [inp] }

theorem witness_NmiEntry :
    let s := facing 0x60 true { Input.quiet with nmiReq := true, intReq := some { code := 0x80, handler := 0x80 } }
    s.nextInput.reset = false ∧ s.nextInput.nmiReq = true ∧ Psw.np s.psw = false := by decide
theorem witness_MaskableEntry :
    let s := facing 0x40 true { Input.quiet with intReq := some { code := 0x80, handler := 0x80 } }
    s.nextInput.reset = false ∧ s.nextInput.nmiReq = false ∧ s.nextInput.intReq = some { code := 0x80, handler := 0x80 } ∧
      Psw.np s.psw = false ∧ Psw.id s.psw = false := by decide
theorem witness_HaltWaits :
    let s := facing 0xA0 true { Input.quiet with nmiReq := true, intReq := some { code := 0x80, handler := 0x80 } }
    s.halted = true ∧ NothingAccepted s := ⟨rfl, by unfold NothingAccepted; decide⟩
theorem witness_ResetInput : (facing 0xFF true { Input.quiet with reset := true }).nextInput.reset = true := by decide
theorem witness_BusWritesReachExternalOnly :
    inRom smallMap 0xFF = true ∧ inRam smallMap 0xFFFFEF00 = true ∧ inExternal smallMap 0x1100 = false ∧
      Memory.read ({ facing 0 false { Input.quiet with busWrites := [(0x10FF, 5), (0x1100, 6)] } with product := smallMap }).afterBus.mem
        0x10FF = 5 := by decide
theorem witness_StepRunsDecodedInstruction :
    let s := State.reset.withFetchWord 32 0x12345640
    NothingAccepted s ∧ s.halted = false ∧ DecodesTo s.afterBus (.movhi 0x1234 0 10) ∧ Instr.wf (.movhi 0x1234 0 10) = true :=
  ⟨by unfold NothingAccepted; decide, rfl, ⟨_, _, rfl, rfl⟩, rfl⟩
theorem witness_FetchReadsMemory :
    (∃ bytes, (State.reset.withFetchWord 32 0x12345640).fetchBytes = .ok bytes ∧ bytes.length = 4) ∧
      (∃ bytes, State.reset.fetchBytes = .ok bytes ∧ bytes.length = 2) ∧
      (∀ j, j < 4 → readable State.reset.product (0xFFFFFC + j) = true) ∧ 0xFFFFFC + 2 < 16777216 :=
  ⟨⟨_, rfl, rfl⟩, ⟨_, rfl, rfl⟩, by decide, by decide⟩
theorem witness_StepRefusesUndefinedCodes :
    (∃ bytes, (State.reset.withFetchWord 32 0x006007E0).afterBus.fetchBytes = .ok bytes ∧ decode bytes = .error .unrecognised) ∧
      (∃ bytes, (State.reset.withFetchWord 32 0x000107E0).afterBus.fetchBytes = .ok bytes ∧ decode bytes = .error .reservedField) ∧
      (let s := { State.reset with pc := 0xFFFFFE, mem := [(0xFFFFFE, 0xE0), (0xFFFFFF, 0x07)] }
       NothingAccepted s ∧ s.halted = false ∧ readable s.product 16777214 = true ∧ readable s.product 16777215 = true ∧
        isLong (Memory.read s.afterBus.mem 16777215 ++ Memory.read s.afterBus.mem 16777214) = true) :=
  ⟨⟨_, rfl, rfl⟩, ⟨_, rfl, rfl⟩, by unfold NothingAccepted; decide, rfl, by decide, by decide, by decide⟩
/-- A first half-word just past the last ROM byte, and a 32-bit instruction whose second half-word is there. -/
theorem witness_StepFaultsUnmapped :
    (let s : State := { State.reset with pc := 0x100, product := smallMap }
     NothingAccepted s ∧ s.halted = false ∧ ∃ j, j < 2 ∧ readable s.product (s.pc.toNat + j) = false) ∧
      (let s : State := { State.reset with pc := 0xFE, product := smallMap, mem := [(0xFE, 0xE0), (0xFF, 0x07)] }
       NothingAccepted s ∧ s.halted = false ∧ (∀ j, j < 2 → readable s.product (s.pc.toNat + j) = true) ∧
        isLong (Memory.read s.afterBus.mem (s.pc.toNat + 1) ++ Memory.read s.afterBus.mem s.pc.toNat) = true ∧
        s.pc.toNat + 2 < 16777216 ∧ ∃ j, j < 2 ∧ readable s.product (s.pc.toNat + 2 + j) = false) :=
  ⟨⟨by unfold NothingAccepted; decide, rfl, 0, by decide, by decide⟩,
    by unfold NothingAccepted; decide, rfl, by decide, by decide, by decide, 0, by decide, by decide⟩

/-- Rows of table 5-10 (R270): DIVH, Bcond both ways, LDSR to FEPC and to PSW, and none for LDSR to ECR. -/
theorem test_clock_table :
    tableClocks 0 (.divh 6 7) = some ⟨2, 36, 36, 36⟩ ∧ tableClocks 1 (.be 2) = some ⟨2, 3, 3, 3⟩ ∧
      tableClocks 0 (.be 2) = some ⟨2, 1, 1, 1⟩ ∧ tableClocks 0 (.ldsr 6 2) = some ⟨4, 1, 1, 3⟩ ∧
      tableClocks 0 (.ldsr 6 5) = some ⟨4, 1, 1, 1⟩ ∧ tableClocks 0 (.ldsr 6 4) = none := by decide
/-- An instruction that goes on, a branch not taken, an exception and a JARL: each has a row and completes. -/
theorem witness_ClockTableBytesAreLengths :
    (∃ c t, tableClocks 0 (.stB 7 0#16 6) = some c ∧ exec (.stB 7 0#16 6) (start 0 []) = .next t) ∧
      (∃ c t, tableClocks 0 (.be 4) = some c ∧ exec (.be 4) (start 0 []) = .next t) ∧
      ¬ TransfersControl (.stB 7 0#16 6) (start 0 []) ∧
      (∃ c t, tableClocks 0 (.trap 0) = some c ∧ exec (.trap 0) (start 0 []) = .next t) ∧ ExceptionInstr (.trap 0) ∧
      ∃ c t, tableClocks 0 (.jarl 4 31) = some c ∧ exec (.jarl 4 31) (start 0 []) = .next t := by
  refine ⟨⟨_, _, rfl, rfl⟩, ⟨_, _, rfl, rfl⟩, ?_, ⟨_, _, rfl, rfl⟩, .inl ⟨0, rfl⟩, ⟨_, _, rfl, rfl⟩⟩
  rintro (⟨_, h⟩ | ⟨_, h⟩ | ⟨_, _, h⟩ | h | (⟨_, h⟩ | ⟨_, _, _, _, _, h⟩) | ⟨cond, _, h, -⟩)
  all_goals first | cases h | (cases cond <;> cases h)

end Sys2Proof.Tests
end

section
/-!
PROOFS. The whole-machine rule that ROM keeps its contents. What an instruction can do to data memory is said once
(`exec_store_cases`: nothing, or one access over writable bytes); a byte of ROM is never writable (D11), and other bus agents
write no byte of ROM (D7), so every part of a step keeps ROM, and the parts compose.
-/

namespace Sys2Proof.Machine

/-! ### What an instruction does to data memory -/

/-- Whatever state an answer gives, it has the map and the memory of `s`. -/
def SameStore (s : State) (o : Result) : Prop := ∀ t, o = .next t → t.product = s.product ∧ t.mem = s.mem

/-- `t` has the map of `s`, and its memory is that of `s` or has the access at the masked address written, each byte of which
is writable. -/
def AccessWrites (w : Width) (adr : Word) (s t : State) : Prop :=
  t.product = s.product ∧
    (t.mem = s.mem ∨
      (∀ j, j < w.bytes → writable s.product ((w.align adr).toNat + j) = true) ∧
        ∃ v, t.mem = Memory.writeLE s.mem (w.align adr).toNat w v)

theorem sameStore_next {s u : State} (hp : u.product = s.product) (hm : u.mem = s.mem) : SameStore s (.next u) := by
  rintro t ⟨⟩
  exact ⟨hp, hm⟩

theorem sameStore_stop (s : State) (e : Stop) : SameStore s e.result := by
  rintro t h
  cases e <;> cases h

theorem State.load_sameStore {s t : State} {w : Width} {adr v : Word} (h : s.load w adr = .ok (v, t)) :
    t.product = s.product ∧ t.mem = s.mem := by
  rw [State.load_keeps h]
  exact ⟨rfl, rfl⟩

theorem loadInto_sameStore (w : Width) (adr : Word) (reg2 : Reg) (n : Nat) (s : State) :
    SameStore s (loadInto w adr reg2 n s) := by
  unfold loadInto
  split
  · next v t hl =>
    obtain ⟨hp, hm⟩ := State.load_sameStore hl
    exact sameStore_next hp hm
  · exact sameStore_stop s _

theorem execTst1_sameStore (bit3 : BitVec 3) (disp16 : BitVec 16) (reg1 : Reg) (s : State) :
    SameStore s (execTst1 bit3 disp16 reg1 s) := by
  unfold execTst1
  split
  · exact sameStore_stop s _
  · next v t hl =>
    obtain ⟨hp, hm⟩ := State.load_sameStore hl
    exact sameStore_next hp hm

theorem branchIf_sameStore (cond : Cond) (disp9 : BitVec 9) (s : State) : SameStore s (branchIf cond disp9 s) := by
  unfold branchIf
  split <;> exact sameStore_next rfl rfl

theorem execDivh_sameStore (reg1 reg2 : Reg) (s : State) : SameStore s (execDivh reg1 reg2 s) := by
  unfold execDivh
  dsimp only
  split <;> exact sameStore_next rfl rfl

theorem execLdsr_sameStore (reg2 : Reg) (regID : BitVec 5) (s : State) : SameStore s (execLdsr reg2 regID s) := by
  unfold execLdsr
  split
  · exact sameStore_stop s (.refusal _)
  · exact sameStore_stop s (.refusal _)
  · exact sameStore_next (State.writeSys_product s _ _) (State.writeSys_mem s _ _)

theorem execStsr_sameStore (regID : BitVec 5) (reg2 : Reg) (s : State) : SameStore s (execStsr regID reg2 s) := by
  unfold execStsr
  split
  · exact sameStore_stop s (.refusal _)
  · exact sameStore_next rfl rfl

/-- A store that answers below the peripheral area writes writable bytes only (D11). -/
theorem State.store_writable {s t : State} {w : Width} {adr v : Word} (h : s.store w adr v = .ok t)
    (hp : isPeripheral (w.align adr).toNat = false) :
    ∀ j, j < w.bytes → writable s.product ((w.align adr).toNat + j) = true := by
  by_contra hw
  simp only [not_forall, Bool.not_eq_true] at hw
  obtain ⟨j, hj, hu⟩ := hw
  by_cases hr : ∀ k, k < w.bytes → readable s.product ((w.align adr).toNat + k) = true
  · rw [State.store_rom hp hr ⟨j, hj, hu⟩] at h
    cases h
  · simp only [not_forall, Bool.not_eq_true] at hr
    obtain ⟨k, hk, hn⟩ := hr
    rw [State.store_unmapped hp ⟨k, hk, hn⟩] at h
    cases h

theorem State.store_accessWrites {s t : State} {w : Width} {adr v : Word} (h : s.store w adr v = .ok t) :
    AccessWrites w adr s t := by
  cases hp : isPeripheral (w.align adr).toNat with
  | true =>
    rw [State.store_peripheral hp] at h
    cases h
    exact ⟨rfl, .inl rfl⟩
  | false =>
    have hw := State.store_writable h hp
    rw [State.store_memory hp hw] at h
    cases h
    exact ⟨rfl, .inr ⟨hw, v, rfl⟩⟩

theorem storeFrom_accessWrites {w : Width} {adr : Word} {reg2 : Reg} {n : Nat} {s t : State}
    (h : storeFrom w adr reg2 n s = .next t) : AccessWrites w adr s t := by
  unfold storeFrom at h
  split at h
  · next u hs =>
    cases h
    have hw := State.store_accessWrites hs
    exact hw
  · next e _ => cases e <;> cases h

theorem bitModify_accessWrites (f : Bool → Bool) (bit3 : BitVec 3) (disp16 : BitVec 16) (reg1 : Reg) {s t : State}
    (h : bitModify f bit3 disp16 reg1 s = .next t) : AccessWrites .byte (s.eaBased reg1 disp16) s t := by
  unfold bitModify at h
  dsimp only at h
  split at h
  · next e _ => cases e <;> cases h
  · next v t' hl =>
    split at h
    · next e _ => cases e <;> cases h
    · next u hs =>
      cases h
      obtain ⟨hp, hm⟩ := State.load_sameStore hl
      have hw := State.store_accessWrites hs
      rw [AccessWrites, hp, hm] at hw
      exact hw

/-- All that an instruction that completes can do to the map and to memory: nothing, or the write of its own access. -/
theorem exec_store_cases {i : Instr} {s t : State} (h : exec i s = .next t) :
    (t.product = s.product ∧ t.mem = s.mem) ∨ ∃ w adr, StoresAt i s w adr ∧ AccessWrites w adr s t := by
  cases i with
  | sstB reg2 d => exact .inr ⟨_, _, .inl ⟨_, _, rfl, rfl, rfl⟩, storeFrom_accessWrites h⟩
  | sstH reg2 d => exact .inr ⟨_, _, .inr (.inl ⟨_, _, rfl, rfl, rfl⟩), storeFrom_accessWrites h⟩
  | sstW reg2 d => exact .inr ⟨_, _, .inr (.inr (.inl ⟨_, _, rfl, rfl, rfl⟩)), storeFrom_accessWrites h⟩
  | stB reg2 d reg1 =>
    exact .inr ⟨_, _, .inr (.inr (.inr (.inl ⟨_, _, _, rfl, rfl, rfl⟩))), storeFrom_accessWrites h⟩
  | stH reg2 d reg1 =>
    exact .inr ⟨_, _, .inr (.inr (.inr (.inr (.inl ⟨_, _, _, rfl, rfl, rfl⟩)))), storeFrom_accessWrites h⟩
  | stW reg2 d reg1 =>
    exact .inr ⟨_, _, .inr (.inr (.inr (.inr (.inr (.inl ⟨_, _, _, rfl, rfl, rfl⟩))))), storeFrom_accessWrites h⟩
  | set1 b d reg1 =>
    exact .inr ⟨_, _, .inr (.inr (.inr (.inr (.inr (.inr (.inl ⟨_, _, _, rfl, rfl, rfl⟩)))))),
      bitModify_accessWrites (fun _ => true) b d reg1 h⟩
  | clr1 b d reg1 =>
    exact .inr ⟨_, _, .inr (.inr (.inr (.inr (.inr (.inr (.inr (.inl ⟨_, _, _, rfl, rfl, rfl⟩))))))),
      bitModify_accessWrites (fun _ => false) b d reg1 h⟩
  | not1 b d reg1 =>
    exact .inr ⟨_, _, .inr (.inr (.inr (.inr (.inr (.inr (.inr (.inr ⟨_, _, _, rfl, rfl, rfl⟩))))))),
      bitModify_accessWrites (fun old => !old) b d reg1 h⟩
  | sldB | sldH | sldW | ldB | ldH | ldW => exact .inl (loadInto_sameStore _ _ _ _ s t h)
  | tst1 b d reg1 => exact .inl (execTst1_sameStore b d reg1 s t h)
  | bv d | bl d | be d | bnh d | bn d | br d | blt d | ble d | bnv d | bnl d | bne d | bh d | bp d | bsa d | bge d | bgt d =>
    exact .inl (branchIf_sameStore _ d s t h)
  | divh reg1 reg2 => exact .inl (execDivh_sameStore reg1 reg2 s t h)
  | ldsr reg2 n => exact .inl (execLdsr_sameStore reg2 n s t h)
  | stsr n reg2 => exact .inl (execStsr_sameStore n reg2 s t h)
  | reti =>
    cases h
    exact .inl ⟨State.leave_product s, State.leave_mem s⟩
  | _ =>
    -- The others write registers, the PSW, the pc or the HALT bit, always to a next state.
    cases h
    exact .inl ⟨rfl, rfl⟩

/-! ### ROM is kept by each part of a step -/

/-- The map is the same and every byte of ROM_RANGE reads as before (R6, R49). -/
def RomKept (s t : State) : Prop :=
  t.product = s.product ∧ ∀ a, inRom s.product a = true → Memory.read t.mem a = Memory.read s.mem a

theorem romKept_of_sameStore {s t : State} (h : t.product = s.product ∧ t.mem = s.mem) : RomKept s t :=
  ⟨h.1, fun a _ => by rw [h.2]⟩

theorem RomKept.trans {s t u : State} (hst : RomKept s t) (htu : RomKept t u) : RomKept s u := by
  obtain ⟨hp, hr⟩ := hst
  obtain ⟨hp', hr'⟩ := htu
  exact ⟨hp'.trans hp, fun a ha => (hr' a (by rwa [hp])).trans (hr a ha)⟩

theorem not_inRom_of_writable {p : Config.Product} {a : Nat} (h : writable p a = true) : inRom p a = false := by
  simp only [writable, Bool.and_eq_true, Bool.not_eq_true'] at h
  exact h.2

/-- An access whose bytes are writable has no byte in ROM (D11). -/
theorem romKept_of_accessWrites {w : Width} {adr : Word} {s t : State} (h : AccessWrites w adr s t) : RomKept s t := by
  obtain ⟨hp, hm | ⟨hw, v, hm⟩⟩ := h
  · exact romKept_of_sameStore ⟨hp, hm⟩
  · refine ⟨hp, fun a ha => ?_⟩
    rw [hm]
    apply Memory.read_writeLE_outside
    by_contra hin
    have ha' := not_inRom_of_writable (hw (a - (w.align adr).toNat) (by omega))
    rw [Nat.add_sub_cancel' (by omega), ha] at ha'
    cases ha'

theorem exec_romKept {i : Instr} {s t : State} (h : exec i s = .next t) : RomKept s t := by
  obtain hsame | ⟨w, adr, -, hw⟩ := exec_store_cases h
  · exact romKept_of_sameStore hsame
  · exact romKept_of_accessWrites hw

/-- A byte that another bus agent writes is not in ROM (D7, log 15). -/
theorem State.busWrite_romKept (c : Host.Cell) (s : State) : RomKept s (s.busWrite c) := by
  unfold State.busWrite
  split
  · next hc =>
    simp only [Bool.and_eq_true, Bool.not_eq_true'] at hc
    obtain ⟨⟨-, hrom⟩, -⟩ := hc
    refine ⟨rfl, fun a ha => Memory.read_write_ne c.2 ?_ s.mem⟩
    rintro rfl
    rw [ha] at hrom
    cases hrom
  · exact romKept_of_sameStore ⟨rfl, rfl⟩

theorem State.busWrites_romKept (ws : List Host.Cell) (s : State) : RomKept s (State.busWrites ws s) := by
  induction ws generalizing s with
  | nil => exact romKept_of_sameStore ⟨rfl, rfl⟩
  | cons c cs ih => exact (State.busWrite_romKept c s).trans (ih (s.busWrite c))

/-- The state a boundary leads to. -/
def Boundary.state : Boundary → State
  | .entered t | .waiting t | .run t => t

/-- A boundary writes no memory but other bus agents' bytes: neither a reset nor an interrupt entry does (R220, R250). -/
theorem State.boundary_romKept (s : State) : RomKept s s.boundary.state := by
  have hbus : RomKept s (State.busWrites s.nextInput.busWrites s.dropInput) := State.busWrites_romKept _ s.dropInput
  obtain ⟨-, hb⟩ | ⟨-, -, -, hb⟩ | ⟨req, -, -, -, -, -, hb⟩ | ⟨-, -, -, hb⟩ := State.boundary_cases s
  · rw [hb]
    exact hbus.trans (romKept_of_sameStore ⟨State.takeReset_product _, State.takeReset_mem _⟩)
  · rw [hb]
    exact hbus.trans (romKept_of_sameStore ⟨rfl, rfl⟩)
  · rw [hb]
    exact hbus.trans (romKept_of_sameStore ⟨rfl, rfl⟩)
  · rw [hb]
    split <;> exact hbus

/-- Settles O15: the boundary keeps ROM, and so does the instruction after it. -/
theorem romKeepsItsContents : Obligations.RomKeepsItsContents := by
  intro s t h
  have hboundary := State.boundary_romKept s
  obtain hb | hb | ⟨u, i, hb, -, he⟩ := step_cases h
  · rwa [hb] at hboundary
  · rwa [hb] at hboundary
  · rw [hb] at hboundary
    exact hboundary.trans (exec_romKept he)

end Sys2Proof.Machine
end

section
/-!
PROOFS. The additions, subtractions and comparisons: the flags that `aluAdd` and `aluSub` compute are the exact ones of R8, and the
two endings `arithTo` and `compareTo` write them, move past the instruction and keep everything else.
-/

namespace Sys2Proof.Machine

theorem signZero_setArith (cy ov : Bool) (r : Word) (p : Psw) :
    SignZero r (Psw.setArith cy ov (signFlag r) (zeroFlag r) p) := by
  simp [SignZero, signFlag_iff, zeroFlag_iff]

theorem statusKept_setArith (cy ov s z : Bool) (p : Psw) : StatusKept p (Psw.setArith cy ov s z p) := by
  simp [StatusKept]

/-- The PSW with the four flags of an operation. -/
def Alu.flagsIn (o : Alu) (p : Psw) : Psw := Psw.setArith o.cy o.ov o.s o.z p

theorem sumFlags_aluAdd (a b : Word) (p : Psw) : SumFlags a b p ((aluAdd a b).flagsIn p) := by
  refine ⟨?carry, ?overflow, signZero_setArith _ _ (a + b) p, statusKept_setArith _ _ _ _ p⟩
  case carry => simp [Alu.flagsIn, aluAdd]
  case overflow => simp [Alu.flagsIn, aluAdd, outOfRange_iff]

theorem differenceFlags_aluSub (a b : Word) (p : Psw) : DifferenceFlags a b p ((aluSub a b).flagsIn p) := by
  refine ⟨?borrow, ?overflow, signZero_setArith _ _ (a - b) p, statusKept_setArith _ _ _ _ p⟩
  case borrow => simp [Alu.flagsIn, aluSub]
  case overflow => simp [Alu.flagsIn, aluSub, outOfRange_iff]

/-- An instruction that ends in `arithTo` writes the operation's result and flags and keeps the rest. -/
theorem writesWithFlags_of_arithTo {i : Instr} {s : State} {reg2 : Reg} {o : Alu} {n : Nat} {flags : Psw → Psw → Prop}
    (h : exec i s = arithTo reg2 o n s) (hf : flags s.psw (o.flagsIn s.psw)) :
    WritesWithFlags i s reg2 o.r flags n := by
  obtain ⟨hframe, hwritten, hpsw⟩ :=
    frameBut_of_write (s := s) (t := ((s.setReg reg2 o.r).setArith o).advance n) (p := o.flagsIn s.psw) rfl
  exact ⟨_, h, hwritten, hpsw ▸ hf, hframe, rfl⟩

/-- An instruction that ends in `compareTo` writes the operation's flags and keeps the rest. -/
theorem setsFlagsOnly_of_compareTo {i : Instr} {s : State} {o : Alu} {n : Nat} {flags : Psw → Psw → Prop}
    (h : exec i s = compareTo o n s) (hf : flags s.psw (o.flagsIn s.psw)) : SetsFlagsOnly i s flags n := by
  obtain ⟨hframe, hpsw⟩ := frameBut_of_flags (s := s) (t := (s.setArith o).advance n) (p := o.flagsIn s.psw) rfl
  exact ⟨_, h, hpsw ▸ hf, hframe, rfl⟩

/-- Settles O18: each of the three ends in `arithTo` with `aluAdd` of its operands. -/
theorem addsWriteSumAndFlags : Obligations.AddsWriteSumAndFlags := by
  intro s reg1 reg2 imm5 imm16
  refine ⟨?addReg, ?addImm, ?addi⟩
  case addReg => exact writesWithFlags_of_arithTo rfl (sumFlags_aluAdd (s.reg reg2) (s.reg reg1) s.psw)
  case addImm => exact writesWithFlags_of_arithTo rfl (sumFlags_aluAdd (s.reg reg2) (sextImm5 imm5) s.psw)
  case addi => exact writesWithFlags_of_arithTo rfl (sumFlags_aluAdd (s.reg reg1) (sextImm16 imm16) s.psw)

/-- Settles O19: both end in `arithTo` with `aluSub`, the operands in the order of the rule. -/
theorem subtractsWriteDifferenceAndFlags : Obligations.SubtractsWriteDifferenceAndFlags := by
  intro s reg1 reg2
  refine ⟨?sub, ?subr⟩
  case sub => exact writesWithFlags_of_arithTo rfl (differenceFlags_aluSub (s.reg reg2) (s.reg reg1) s.psw)
  case subr => exact writesWithFlags_of_arithTo rfl (differenceFlags_aluSub (s.reg reg1) (s.reg reg2) s.psw)

/-- Settles O20: both end in `compareTo` with `aluSub` of reg2 and the other operand. -/
theorem comparesSetFlagsOnly : Obligations.ComparesSetFlagsOnly := by
  intro s reg1 reg2 imm5
  refine ⟨?cmpReg, ?cmpImm⟩
  case cmpReg => exact setsFlagsOnly_of_compareTo rfl (differenceFlags_aluSub (s.reg reg2) (s.reg reg1) s.psw)
  case cmpImm => exact setsFlagsOnly_of_compareTo rfl (differenceFlags_aluSub (s.reg reg2) (sextImm5 imm5) s.psw)

end Sys2Proof.Machine
end

section
/-!
PROOFS. What an instruction that completes can do, said once (`exec_effect`): it goes on past itself, jumps, saturates, writes ID,
loads a system register, takes an exception or returns from one. The rules about the writers of the flags and of the system
registers, the invariant and the moves of the pc are read off this list.
-/

namespace Sys2Proof.Machine

/-! ### The conditions -/

/-- The condition a branch tests is the expression of R171. -/
theorem Psw.holds_iff (p : Psw) (cond : Cond) : Psw.holds p cond = true ↔ CondTrue p cond := by
  cases cond <;> simp [Psw.holds, CondTrue]

/-! ### The kinds of effect -/

/-- The saving registers, ECR and the cell of r0 keep their values. -/
structure CoreKept (s t : State) : Prop where
  sys : SysKept s t
  cellZero : t.gpr[0] = s.gpr[0]

/-- An instruction without a part in control or status: past itself, with SAT, ID, EP, NP and the core registers kept. -/
structure GoesOn (n : Nat) (s t : State) : Prop where
  core : CoreKept s t
  status : StatusKept s.psw t.psw
  past : PastPc n s t

/-- All that the completion of instruction `i` in `s` can do to the pc, the status bits and the system registers. -/
inductive ExecEffect (i : Instr) (s t : State) : Prop where
  | goesOn (h : GoesOn i.length s t)
  | jumps (hi : TransfersControl i s) (hkept : CoreKept s t) (hpsw : t.psw = s.psw) (target : PcVal)
      (hpc : t.pc = target &&& 0xFFFFFE#24)
  | saturates (hi : Saturating i) (reg2 : Reg) (o : Alu)
      (ht : t = (((s.setReg reg2 o.r).setArith o).setSatIf o.ov).advance i.length)
  | writesId (b : Bool) (hi : i = if b then .di else .ei) (ht : t = (s.setPsw (Psw.setId b s.psw)).advance i.length)
  | loadsSys (reg2 : Reg) (n : BitVec 5) (r : SysReg) (hi : i = .ldsr reg2 n) (hr : SysReg.ofId n = some r)
      (ht : t = (State.writeSys (s.reg reg2) s r).advance i.length)
  | excepts (hi : ExceptionInstr i) (e : Entry) (hbank : e.bank = .ei) (hex : e.exception = true) (ht : t = s.enter e)
  | returns (hi : i = .reti) (ht : t = s.leave)

/-! ### The common endings -/

theorem StatusKept.refl (p : Psw) : StatusKept p p := ⟨rfl, rfl, rfl, rfl⟩

/-- What a data access keeps: the core registers, the PSW and the pc. -/
structure AccessKept (s t : State) : Prop where
  core : CoreKept s t
  psw : t.psw = s.psw
  pc : t.pc = s.pc

theorem State.load_accessKept {s t : State} {w : Width} {adr v : Word} (h : s.load w adr = .ok (v, t)) :
    AccessKept s t := by
  rw [State.load_keeps h]
  exact ⟨⟨⟨rfl, rfl, rfl, rfl, rfl, rfl⟩, rfl⟩, rfl, rfl⟩

theorem State.store_accessKept {s t : State} {w : Width} {adr v : Word} (h : s.store w adr v = .ok t) :
    AccessKept s t := by
  rw [State.store_keeps h]
  exact ⟨⟨⟨rfl, rfl, rfl, rfl, rfl, rfl⟩, rfl⟩, rfl, rfl⟩

/-- After an access, a write to a register and new condition flags leave an instruction that goes on. -/
theorem AccessKept.goesOn {s t : State} (h : AccessKept s t) (reg2 : Reg) (v : Word) {p : Psw} (hp : StatusKept t.psw p)
    (n : Nat) : GoesOn n s (((t.setReg reg2 v).setPsw p).advance n) := by
  obtain ⟨⟨hsys, hzero⟩, hpsw, hpc⟩ := h
  refine ⟨⟨hsys, ?_⟩, hpsw ▸ hp, ?_⟩
  · simpa using (State.setReg_cell_zero t reg2 v).trans hzero
  · simp [PastPc, hpc]

/-- After an access, new condition flags alone: as the write to r0 that is discarded (R11). -/
theorem AccessKept.goesOn_flags {s t : State} (h : AccessKept s t) {p : Psw} (hp : StatusKept t.psw p) (n : Nat) :
    GoesOn n s ((t.setPsw p).advance n) :=
  h.goesOn 0 0 hp n

theorem AccessKept.refl (s : State) : AccessKept s s := ⟨⟨⟨rfl, rfl, rfl, rfl, rfl, rfl⟩, rfl⟩, rfl, rfl⟩

theorem accessKept_tick (s : State) : AccessKept s s.tick := ⟨⟨⟨rfl, rfl, rfl, rfl, rfl, rfl⟩, rfl⟩, rfl, rfl⟩

theorem accessKept_setHalted (b : Bool) (s : State) : AccessKept s (s.setHalted b) :=
  ⟨⟨⟨rfl, rfl, rfl, rfl, rfl, rfl⟩, rfl⟩, rfl, rfl⟩

theorem coreKept_setPc (target : PcVal) (s : State) : CoreKept s (s.setPc target) :=
  ⟨⟨rfl, rfl, rfl, rfl, rfl, rfl⟩, rfl⟩

theorem statusKept_setOvSZ (ov sgn zero : Bool) (p : Psw) : StatusKept p (Psw.setOvSZ ov sgn zero p) := by
  simp [StatusKept]

theorem statusKept_setZ (zero : Bool) (p : Psw) : StatusKept p (Psw.setZ zero p) := by
  simp [StatusKept]

theorem moveTo_goesOn {reg2 : Reg} {v : Word} {n : Nat} {s t : State} (h : moveTo reg2 v n s = .next t) :
    GoesOn n s t := by
  cases h
  exact (AccessKept.refl s).goesOn reg2 v (StatusKept.refl s.psw) n

theorem arithTo_goesOn {reg2 : Reg} {o : Alu} {n : Nat} {s t : State} (h : arithTo reg2 o n s = .next t) :
    GoesOn n s t := by
  cases h
  exact (AccessKept.refl s).goesOn reg2 o.r (statusKept_setArith o.cy o.ov o.s o.z s.psw) n

theorem shiftTo_goesOn {reg2 : Reg} {o : Alu} {n : Nat} {s t : State} (h : shiftTo reg2 o n s = .next t) :
    GoesOn n s t := arithTo_goesOn h

theorem logicTo_goesOn {reg2 : Reg} {r : Word} {n : Nat} {s t : State} (h : logicTo reg2 r n s = .next t) :
    GoesOn n s t := by
  cases h
  exact (AccessKept.refl s).goesOn reg2 r (statusKept_setOvSZ _ _ _ s.psw) n

theorem compareTo_goesOn {o : Alu} {n : Nat} {s t : State} (h : compareTo o n s = .next t) : GoesOn n s t := by
  cases h
  exact (AccessKept.refl s).goesOn_flags (statusKept_setArith o.cy o.ov o.s o.z s.psw) n

theorem loadInto_goesOn {w : Width} {adr : Word} {reg2 : Reg} {n : Nat} {s t : State}
    (h : loadInto w adr reg2 n s = .next t) : GoesOn n s t := by
  unfold loadInto at h
  split at h
  · next v u hl =>
    cases h
    exact (State.load_accessKept hl).goesOn reg2 _ (StatusKept.refl u.psw) n
  · next e _ => cases e <;> cases h

theorem storeFrom_goesOn {w : Width} {adr : Word} {reg2 : Reg} {n : Nat} {s t : State}
    (h : storeFrom w adr reg2 n s = .next t) : GoesOn n s t := by
  unfold storeFrom at h
  split at h
  · next u hs =>
    cases h
    exact (State.store_accessKept hs).goesOn_flags (StatusKept.refl u.psw) n
  · next e _ => cases e <;> cases h

theorem execTst1_goesOn {bit3 : BitVec 3} {disp16 : BitVec 16} {reg1 : Reg} {s t : State}
    (h : execTst1 bit3 disp16 reg1 s = .next t) : GoesOn 4 s t := by
  unfold execTst1 at h
  split at h
  · next e _ => cases e <;> cases h
  · next v u hl =>
    cases h
    exact (State.load_accessKept hl).goesOn_flags (statusKept_setZ _ u.psw) 4

theorem AccessKept.trans {s t u : State} (hst : AccessKept s t) (htu : AccessKept t u) : AccessKept s u := by
  obtain ⟨⟨⟨h1, h2, h3, h4, h5, h6⟩, hzero⟩, hpsw, hpc⟩ := hst
  obtain ⟨⟨⟨k1, k2, k3, k4, k5, k6⟩, kzero⟩, kpsw, kpc⟩ := htu
  exact ⟨⟨⟨k1.trans h1, k2.trans h2, k3.trans h3, k4.trans h4, k5.trans h5, k6.trans h6⟩, kzero.trans hzero⟩,
    kpsw.trans hpsw, kpc.trans hpc⟩

theorem bitModify_goesOn {f : Bool → Bool} {bit3 : BitVec 3} {disp16 : BitVec 16} {reg1 : Reg} {s t : State}
    (h : bitModify f bit3 disp16 reg1 s = .next t) : GoesOn 4 s t := by
  unfold bitModify at h
  dsimp only at h
  split at h
  · next e _ => cases e <;> cases h
  · next v u hl =>
    split at h
    · next e _ => cases e <;> cases h
    · next u' hs =>
      cases h
      exact ((State.load_accessKept hl).trans (State.store_accessKept hs)).goesOn_flags (statusKept_setZ _ u'.psw) 4

theorem execDivh_goesOn {reg1 reg2 : Reg} {s t : State} (h : execDivh reg1 reg2 s = .next t) : GoesOn 2 s t := by
  unfold execDivh at h
  dsimp only at h
  split at h
  · cases h
    exact (accessKept_tick s).goesOn reg2 _ (statusKept_setOvSZ _ _ _ _) 2
  · cases h
    exact (AccessKept.refl s).goesOn reg2 _ (statusKept_setOvSZ _ _ _ _) 2

theorem execStsr_goesOn {n : BitVec 5} {reg2 : Reg} {s t : State} (h : execStsr n reg2 s = .next t) : GoesOn 4 s t := by
  unfold execStsr at h
  split at h
  · cases h
  · cases h
    exact (AccessKept.refl s).goesOn reg2 _ (StatusKept.refl s.psw) 4

theorem branch_length (cond : Cond) (d : BitVec 9) : (Cond.branch cond d).length = 2 := by cases cond <;> rfl

/-- A branch jumps where its condition holds and goes on where it does not (R175). -/
theorem branchIf_effect {cond : Cond} {d : BitVec 9} {s t : State} (h : branchIf cond d s = .next t) :
    ExecEffect (Cond.branch cond d) s t := by
  unfold branchIf at h
  split at h
  · next hc =>
    cases h
    exact .jumps (.inr (.inr (.inr (.inr (.inr ⟨cond, d, rfl, (Psw.holds_iff _ _).mp hc⟩))))) (coreKept_setPc _ s) rfl _ rfl
  · cases h
    exact .goesOn (branch_length cond d ▸ (AccessKept.refl s).goesOn_flags (StatusKept.refl s.psw) 2)

theorem execLdsr_effect {reg2 : Reg} {n : BitVec 5} {s t : State} (h : execLdsr reg2 n s = .next t) :
    ExecEffect (.ldsr reg2 n) s t := by
  unfold execLdsr at h
  split at h
  · cases h
  · cases h
  · next r _ hr =>
    cases h
    exact .loadsSys reg2 n r rfl hr rfl

/-- What the completion of each instruction does, by its own ending. -/
theorem exec_effect {i : Instr} {s t : State} (h : exec i s = .next t) : ExecEffect i s t := by
  cases i with
  | bv d => exact branchIf_effect (cond := .v) h
  | bl d => exact branchIf_effect (cond := .c) h
  | be d => exact branchIf_effect (cond := .z) h
  | bnh d => exact branchIf_effect (cond := .nh) h
  | bn d => exact branchIf_effect (cond := .s) h
  | br d => exact branchIf_effect (cond := .t) h
  | blt d => exact branchIf_effect (cond := .lt) h
  | ble d => exact branchIf_effect (cond := .le) h
  | bnv d => exact branchIf_effect (cond := .nv) h
  | bnl d => exact branchIf_effect (cond := .nc) h
  | bne d => exact branchIf_effect (cond := .nz) h
  | bh d => exact branchIf_effect (cond := .h) h
  | bp d => exact branchIf_effect (cond := .ns) h
  | bsa d => exact branchIf_effect (cond := .sa) h
  | bge d => exact branchIf_effect (cond := .ge) h
  | bgt d => exact branchIf_effect (cond := .gt) h
  | sldB | sldH | sldW | ldB | ldH | ldW => exact .goesOn (loadInto_goesOn h)
  | sstB | sstH | sstW | stB | stH | stW => exact .goesOn (storeFrom_goesOn h)
  | set1 => exact .goesOn (bitModify_goesOn (f := fun _ => true) h)
  | clr1 => exact .goesOn (bitModify_goesOn (f := fun _ => false) h)
  | not1 => exact .goesOn (bitModify_goesOn (f := fun old => !old) h)
  | tst1 => exact .goesOn (execTst1_goesOn h)
  | divh => exact .goesOn (execDivh_goesOn h)
  | stsr => exact .goesOn (execStsr_goesOn h)
  | ldsr => exact execLdsr_effect h
  | jmp => cases h; exact .jumps (.inl ⟨_, rfl⟩) (coreKept_setPc _ s) rfl _ rfl
  | jr => cases h; exact .jumps (.inr (.inl ⟨_, rfl⟩)) (coreKept_setPc _ s) rfl _ rfl
  | jarl d reg2 =>
    cases h
    exact .jumps (.inr (.inr (.inl ⟨d, reg2, rfl⟩)))
      ⟨⟨rfl, rfl, rfl, rfl, rfl, rfl⟩, State.setReg_cell_zero s reg2 _⟩ rfl _ rfl
  | sataddReg reg1 reg2 => cases h; exact .saturates (.inl ⟨_, _, rfl⟩) reg2 _ rfl
  | sataddImm imm5 reg2 => cases h; exact .saturates (.inr (.inl ⟨_, _, rfl⟩)) reg2 _ rfl
  | satsub reg1 reg2 => cases h; exact .saturates (.inr (.inr (.inl ⟨_, _, rfl⟩))) reg2 _ rfl
  | satsubi imm16 reg1 reg2 => cases h; exact .saturates (.inr (.inr (.inr (.inl ⟨_, _, _, rfl⟩)))) reg2 _ rfl
  | satsubr reg1 reg2 => cases h; exact .saturates (.inr (.inr (.inr (.inr ⟨_, _, rfl⟩)))) reg2 _ rfl
  | trap v => cases h; exact .excepts (.inl ⟨v, rfl⟩) _ rfl rfl rfl
  | ilgop => cases h; exact .excepts (.inr ⟨_, _, _, _, _, rfl⟩) _ rfl rfl rfl
  | reti => cases h; exact .returns rfl rfl
  | di => cases h; exact .writesId true rfl rfl
  | ei => cases h; exact .writesId false rfl rfl
  | nop => cases h; exact .goesOn ((AccessKept.refl s).goesOn_flags (StatusKept.refl s.psw) 2)
  | halt =>
    cases h
    exact .goesOn ((accessKept_setHalted true s).goesOn_flags (StatusKept.refl s.psw) 4)
  | movReg | movImm | movea | movhi | mulhReg | mulhImm | mulhi | setf => exact .goesOn (moveTo_goesOn h)
  | addReg | addImm | addi | sub | subr => exact .goesOn (arithTo_goesOn h)
  | cmpReg | cmpImm => exact .goesOn (compareTo_goesOn h)
  | orReg | xorReg | andReg | notReg | ori | xori | andi => exact .goesOn (logicTo_goesOn h)
  | shrReg | sarReg | shlReg | shrImm | sarImm | shlImm => exact .goesOn (shiftTo_goesOn h)
  | tst => cases h; exact .goesOn ((AccessKept.refl s).goesOn_flags (statusKept_setOvSZ _ _ _ s.psw) 2)

/-- TRAP and an illegal op code enter through the EI bank with the address past them (R224, R225). -/
theorem exec_exceptionInstr {i : Instr} (hi : ExceptionInstr i) (s : State) :
    ∃ e : Entry, e.bank = .ei ∧ e.restore = s.pc + 4#24 ∧ exec i s = .next (s.enter e) := by
  obtain ⟨vector, rfl⟩ | ⟨a, b, c, sub, d, rfl⟩ := hi
  · exact ⟨trapEntry vector s, rfl, rfl, rfl⟩
  · exact ⟨ilgopEntry s, rfl, rfl, rfl⟩

/-- A saturated instruction ends in `satTo` (R140 to R145). -/
theorem exec_saturating {i : Instr} (hi : Saturating i) (s : State) : ∃ reg2 o, exec i s = satTo reg2 o i.length s := by
  obtain ⟨_, reg2, rfl⟩ | ⟨_, reg2, rfl⟩ | ⟨_, reg2, rfl⟩ | ⟨_, _, reg2, rfl⟩ | ⟨_, reg2, rfl⟩ := hi
  all_goals exact ⟨reg2, _, rfl⟩

end Sys2Proof.Machine
end

section
/-!
PROOFS. The rules about all instructions and all steps that are read off `exec_effect`: who writes the status bits and the system
registers, and the invariant (memory canonical, the pc even, the cell of r0 zero).
-/

namespace Sys2Proof.Machine

/-! ### The numbers of the system registers -/

/-- The number of a system register (R16). -/
def SysReg.number : SysReg → BitVec 5
  | .eipc => 0#5
  | .eipsw => 1#5
  | .fepc => 2#5
  | .fepsw => 3#5
  | .ecr => 4#5
  | .psw => 5#5

theorem SysReg.ofId_eq_some_iff (n : BitVec 5) (r : SysReg) : SysReg.ofId n = some r ↔ n = r.number := by
  revert n; cases r <;> decide

theorem SysReg.ofId_eq_none_iff (n : BitVec 5) : SysReg.ofId n = none ↔ 6 ≤ n.toNat := by
  revert n; decide

theorem loadsSysReg_of_ofId {i : Instr} {reg2 : Reg} {n : BitVec 5} {r : SysReg} (hi : i = .ldsr reg2 n)
    (hr : SysReg.ofId n = some r) : LoadsSysReg i r.number :=
  ⟨reg2, by rw [hi, (SysReg.ofId_eq_some_iff n r).mp hr]⟩

/-! ### Who writes the status bits and the system registers -/

/-- Settles O12: of the effects left, only ID's writers and an exception entry reach the three flags. -/
theorem interruptFlagWriters : Obligations.InterruptFlagWriters := by
  intro i s t h hldsr hreti
  cases exec_effect h with
  | goesOn hgo =>
    obtain ⟨-, ⟨-, hid, hep, hnp⟩, -⟩ := hgo
    exact ⟨hnp, fun hne => absurd hep hne, fun hne => absurd hid hne⟩
  | jumps _ _ hpsw => simp [hpsw]
  | saturates _ reg2 o ht => simp [ht]
  | writesId b hi ht => cases b <;> simp [ht, hi]
  | loadsSys reg2 n r hi hr ht =>
    have hpsw : r ≠ .psw := by
      rintro rfl
      exact hldsr (loadsSysReg_of_ofId hi hr)
    simp [ht, hpsw]
  | excepts hi e hbank hex ht => simp [ht, hbank, hex, hi]
  | returns hi => exact absurd hi hreti

/-- Settles O13: entries write the EI bank alone, and LDSR writes the register of its number. -/
theorem systemRegisterWriters : Obligations.SystemRegisterWriters := by
  intro i s t h
  cases exec_effect h with
  | goesOn hgo =>
    obtain ⟨⟨⟨heipc, heipsw, hfepc, hfepsw, hfecc, heicc⟩, -⟩, -⟩ := hgo
    simp [heipc, heipsw, hfepc, hfepsw, hfecc, heicc]
  | jumps _ hkept =>
    obtain ⟨⟨heipc, heipsw, hfepc, hfepsw, hfecc, heicc⟩, -⟩ := hkept
    simp [heipc, heipsw, hfepc, hfepsw, hfecc, heicc]
  | saturates _ reg2 o ht => simp [ht]
  | writesId b hi ht => simp [ht]
  | loadsSys reg2 n r hi hr ht =>
    rw [SysReg.ofId_eq_some_iff] at hr
    subst hi ht hr
    cases r <;> simp [LoadsSysReg, SysReg.number]
  | excepts hi e hbank hex ht => simp [ht, hbank, hi]
  | returns hi ht => simp [ht]

/-- An instruction that changes SAT saturates with OV and SAT left 1, loads the PSW or returns (R24). -/
theorem exec_sat_writers {i : Instr} {s t : State} (h : exec i s = .next t) (hsat : Psw.sat t.psw ≠ Psw.sat s.psw) :
    (Saturating i ∧ Psw.ov t.psw = true ∧ Psw.sat t.psw = true) ∨ LoadsSysReg i 5#5 ∨ i = .reti := by
  cases exec_effect h with
  | goesOn hgo => exact absurd hgo.status.1 hsat
  | jumps _ _ hpsw => exact absurd (by rw [hpsw]) hsat
  | saturates hi reg2 o ht =>
    cases ho : o.ov <;> simp [ht, ho] at hsat ⊢
    exact .inl hi
  | writesId b hi ht => simp [ht] at hsat
  | loadsSys reg2 n r hi hr ht =>
    cases r <;> simp [ht] at hsat
    exact .inr (.inl (loadsSysReg_of_ofId hi hr))
  | excepts hi e hbank hex ht => simp [ht] at hsat
  | returns hi => exact .inr (.inr hi)

/-! ### The invariant -/

theorem State.wf_iff (s : State) :
    s.wf = true ↔ Memory.wf s.mem = true ∧ s.pc.getLsbD 0 = false ∧ s.gpr[0] = 0#32 := by
  simp [State.wf, and_assoc]

/-- Bit 0 of a masked pc is 0 (R14). -/
theorem evenPc (target : PcVal) : (target &&& 0xFFFFFE#24).getLsbD 0 = false := by simp

theorem exec_pc_even {i : Instr} {s t : State} (h : exec i s = .next t) : t.pc.getLsbD 0 = false := by
  cases exec_effect h with
  | goesOn hgo => rw [hgo.past]; exact evenPc _
  | jumps _ _ _ target hpc => rw [hpc]; exact evenPc _
  | saturates _ reg2 o ht => rw [ht]; exact evenPc _
  | writesId b _ ht => rw [ht]; exact evenPc _
  | loadsSys reg2 n r _ _ ht => rw [ht]; exact evenPc _
  | excepts _ e _ _ ht => rw [ht]; exact evenPc _
  | returns _ ht => rw [ht, State.leave_pc]; exact evenPc _

/-- No instruction writes the cell of r0 (R11). -/
theorem exec_cell_zero {i : Instr} {s t : State} (h : exec i s = .next t) : t.gpr[0] = s.gpr[0] := by
  cases exec_effect h with
  | goesOn hgo => exact hgo.core.cellZero
  | jumps _ hkept => exact hkept.cellZero
  | saturates _ reg2 o ht => rw [ht]; exact State.setReg_cell_zero s reg2 o.r
  | writesId b _ ht => rw [ht]; rfl
  | loadsSys reg2 n r _ _ ht => simp [ht]
  | excepts _ e _ _ ht => rw [ht]; rfl
  | returns _ ht => simp [ht]

theorem exec_mem_wf {i : Instr} {s t : State} (h : exec i s = .next t) (hm : Memory.wf s.mem = true) :
    Memory.wf t.mem = true := by
  obtain ⟨-, he⟩ | ⟨w, adr, -, -, he | ⟨-, v, he⟩⟩ := exec_store_cases h
  · rwa [he]
  · rwa [he]
  · rw [he]
    exact Memory.wf_writeLE w v hm (Width.align_bound w adr)

theorem exec_keeps_wf {i : Instr} {s t : State} (h : exec i s = .next t) (hs : s.wf = true) : t.wf = true := by
  rw [State.wf_iff] at hs ⊢
  obtain ⟨hm, -, hz⟩ := hs
  exact ⟨exec_mem_wf h hm, exec_pc_even h, (exec_cell_zero h).trans hz⟩

/-- Other bus agents' writes keep memory canonical: an external address is below the peripheral area (R49, D7). -/
theorem State.busWrites_mem_wf (ws : List Host.Cell) (s : State) (hm : Memory.wf s.mem = true) :
    Memory.wf (State.busWrites ws s).mem = true := by
  induction ws generalizing s with
  | nil => exact hm
  | cons c cs ih =>
    apply ih
    unfold State.busWrite
    split
    · next hc =>
      have hnot : isPeripheral c.1 = false :=
        not_peripheral_of_readable (p := s.product) (by simp_all [readable])
      rw [isPeripheral, decide_eq_false_iff_not, Nat.not_le] at hnot
      exact Memory.wf_write c.2 hm (hnot.trans (by decide))
    · exact hm

theorem State.boundary_keeps_wf (s : State) (hs : s.wf = true) : s.boundary.state.wf = true := by
  rw [State.wf_iff] at hs
  obtain ⟨hm, hpc, hz⟩ := hs
  have hmem := State.busWrites_mem_wf s.nextInput.busWrites s.dropInput hm
  have hcell : (State.busWrites s.nextInput.busWrites s.dropInput).gpr[0] = 0#32 := by
    rw [State.busWrites_keeps]
    exact hz
  have hbus : (State.busWrites s.nextInput.busWrites s.dropInput).wf = true := by
    rw [State.wf_iff]
    refine ⟨hmem, ?_, hcell⟩
    rw [State.busWrites_keeps]
    exact hpc
  obtain ⟨-, hb⟩ | ⟨-, -, -, hb⟩ | ⟨req, -, -, -, -, -, hb⟩ | ⟨-, -, -, hb⟩ := State.boundary_cases s
  · rw [hb, State.wf_iff]
    exact ⟨by simpa [Boundary.state] using hmem, by simp [Boundary.state], State.takeReset_cell_zero _⟩
  · rw [hb, State.wf_iff]
    exact ⟨hmem, evenPc _, hcell⟩
  · rw [hb, State.wf_iff]
    exact ⟨hmem, evenPc _, hcell⟩
  · rw [hb]
    split <;> exact hbus

/-- Settles O10: the boundary keeps the invariant, and so does the instruction after it. -/
theorem stepKeepsWellFormed : Obligations.StepKeepsWellFormed := by
  intro s t hs h
  have hboundary := State.boundary_keeps_wf s hs
  obtain hb | hb | ⟨u, i, hb, -, he⟩ := step_cases h
  · rwa [hb] at hboundary
  · rwa [hb] at hboundary
  · rw [hb] at hboundary
    exact exec_keeps_wf he hboundary

end Sys2Proof.Machine
end

section
/-!
PROOFS. Moves, jumps and the system register moves: the values they write said as integers, and the endings `moveTo` and `setPc` with
their frames.
-/

namespace Sys2Proof.Machine

/-! ### Values as integers -/

theorem sextImm5_eq_ofInt (i : BitVec 5) : sextImm5 i = BitVec.ofInt 32 i.toInt := rfl

/-- Two half-words joined, as a word. -/
theorem append_eq_ofNat (hi lo : Half) : hi ++ lo = BitVec.ofNat 32 (hi.toNat * 65536 + lo.toNat) := by
  apply BitVec.eq_of_toNat_eq
  have hhi := hi.isLt
  have hlo := lo.isLt
  rw [BitVec.toNat_append, ← Nat.shiftLeft_add_eq_or_of_lt hlo, Nat.shiftLeft_eq, BitVec.toNat_ofNat]
  omega

theorem add_highImm16 (v : Word) (i : BitVec 16) : v + highImm16 i = BitVec.ofNat 32 (v.toNat + i.toNat * 65536) := by
  simp [highImm16, append_eq_ofNat, BitVec.ofNat_add]

theorem add_sextImm16 (v : Word) (i : BitVec 16) : v + sextImm16 i = BitVec.ofInt 32 (v.toInt + i.toInt) := by
  rw [BitVec.ofInt_add, BitVec.ofInt_toInt]
  rfl

/-- The branch target of R170 in integers. -/
theorem State.relTarget_eq (s : State) {n : Nat} (d : BitVec n) : s.relTarget d = relativeTo s.pc d.toInt := by
  rw [relativeTo, BitVec.ofInt_add, BitVec.ofInt_natCast, BitVec.ofNat_toNat, BitVec.setWidth_eq]
  rfl

theorem add_eq_relativeTo (pc : PcVal) (n : Nat) : pc + BitVec.ofNat 24 n = relativeTo pc n := by
  rw [relativeTo, ← Int.natCast_add, BitVec.ofInt_natCast, BitVec.ofNat_add, BitVec.ofNat_toNat, BitVec.setWidth_eq]

theorem extract_eq_ofNat {w n : Nat} (v : BitVec w) : v.extractLsb' 0 n = BitVec.ofNat n v.toNat := by
  simp [BitVec.extractLsb']

/-- The link of JARL, the address `n` bytes on modulo 2^24, as a word (R174, D3). -/
theorem pcWord_add (pc : PcVal) (n : Nat) : pcWord (pc + BitVec.ofNat 24 n) = BitVec.ofNat 32 ((pc.toNat + n) % 16777216) := by
  apply BitVec.eq_of_toNat_eq
  simp [pcWord]

/-! ### Endings -/

theorem writesOnly_of_moveTo {i : Instr} {s : State} {reg2 : Reg} {v : Word} {n : Nat}
    (h : exec i s = moveTo reg2 v n s) : WritesOnly i s reg2 v n := by
  obtain ⟨hframe, hwritten, hpsw⟩ :=
    frameBut_of_write (s := s) (t := (s.setReg reg2 v).advance n) (p := s.psw) rfl
  exact ⟨_, h, hwritten, hpsw, hframe, rfl⟩

theorem jumpsTo_of_setPc {i : Instr} {s : State} {target : PcVal} (h : exec i s = .next (s.setPc target)) :
    JumpsTo i s [] target := by
  obtain ⟨hframe, hpsw⟩ := frameBut_of_flags (s := s) (t := s.setPc target) (p := s.psw) rfl
  exact ⟨_, h, rfl, hpsw, hframe⟩

theorem exec_branch (cond : Cond) (d : BitVec 9) (s : State) : exec (Cond.branch cond d) s = branchIf cond d s := by
  cases cond <;> rfl

/-- A conditional branch goes to its target or past itself (R175). -/
theorem branch_jumpsTo (cond : Cond) (d : BitVec 9) (s : State) :
    JumpsTo (Cond.branch cond d) s [] (relativeTo s.pc (if Psw.holds s.psw cond = true then d.toInt else 2)) := by
  have h := exec_branch cond d s
  unfold branchIf at h
  split
  · next hc =>
    rw [if_pos hc, State.relTarget_eq] at h
    exact jumpsTo_of_setPc h
  · next hc =>
    rw [if_neg hc, State.advance, add_eq_relativeTo] at h
    exact jumpsTo_of_setPc h

/-! ### Moves and jumps -/

theorem exec_jarl_link {d : BitVec 22} {reg2 : Reg} {s t : State} (h : exec (.jarl d reg2) s = .next t) :
    Written t reg2 (BitVec.ofNat 32 ((s.pc.toNat + 4) % 16777216)) := by
  cases h
  rw [← pcWord_add]
  exact State.reg_setReg_self s reg2 _

/-- Settles O17: each of the four ends in `moveTo` with its value. -/
theorem movesWriteRegister : Obligations.MovesWriteRegister := by
  intro s reg1 reg2 imm5 imm16
  rw [← sextImm5_eq_ofInt, ← add_highImm16, ← add_sextImm16]
  exact ⟨writesOnly_of_moveTo rfl, writesOnly_of_moveTo rfl, writesOnly_of_moveTo rfl, writesOnly_of_moveTo rfl⟩

/-- Settles O29: the targets are those of R170 in integers, and JARL's link is the address past it. -/
theorem jumpsGoToTarget : Obligations.JumpsGoToTarget := by
  intro s reg1 reg2 disp22
  rw [← State.relTarget_eq, ← extract_eq_ofNat]
  refine ⟨jumpsTo_of_setPc rfl, jumpsTo_of_setPc rfl, ?jarl, ?link⟩
  case jarl =>
    obtain ⟨hframe, -, hpsw⟩ := frameBut_of_write (s := s) (reg2 := reg2) (v := pcWord (s.pc + 4#24)) (p := s.psw)
      (a := s.relTarget disp22) rfl
    exact ⟨_, rfl, rfl, hpsw, hframe⟩
  case link => exact fun t ht => exec_jarl_link ht

/-! ### System registers -/

/-- Settles O42: STSR ends in `moveTo` with the register's value zero-extended. -/
theorem stsrStoresSystemRegister : Obligations.StsrStoresSystemRegister := by
  intro s reg2
  simp only [BitVec.ofNat_toNat, ← append_eq_ofNat]
  exact ⟨writesOnly_of_moveTo rfl, writesOnly_of_moveTo rfl, writesOnly_of_moveTo rfl, writesOnly_of_moveTo rfl,
    writesOnly_of_moveTo rfl, writesOnly_of_moveTo rfl⟩

/-- Settles O41: each number selects its register, and the valid bits of reg2 are its low bits. -/
theorem ldsrLoadsSystemRegister : Obligations.LdsrLoadsSystemRegister := by
  intro s reg2
  simp only [← extract_eq_ofNat]
  exact ⟨rfl, rfl, rfl, rfl, rfl⟩

/-- Settles O43: numbers 6 to 31 name no system register, and number 4 is the read-only ECR. -/
theorem reservedSystemRegistersRefused : Obligations.ReservedSystemRegistersRefused := by
  refine fun s reg2 n => ⟨fun hn => ?reserved, rfl⟩
  case reserved =>
    have hnone := (SysReg.ofId_eq_none_iff n).mpr hn
    exact ⟨by simp [exec, execLdsr, hnone], by simp [exec, execStsr, hnone]⟩

end Sys2Proof.Machine
end

section
/-!
PROOFS. The boundary and the fetch: when a step runs an instruction and which one, and where it stops. On these rest the rules on SAT
over steps, the reset input and the stops of a fetch.
-/

namespace Sys2Proof.Machine

/-! ### The state after the boundary's input -/

/-- The boundary's input touches the schedule and memory alone (D7). -/
theorem State.afterBus_eq (s : State) : s.afterBus = { s with inputs := s.inputs.tail, mem := s.afterBus.mem } :=
  State.busWrites_keeps s.nextInput.busWrites s.dropInput

@[simp] theorem State.afterBus_pc (s : State) : s.afterBus.pc = s.pc := by rw [State.afterBus_eq]
@[simp] theorem State.afterBus_psw (s : State) : s.afterBus.psw = s.psw := by rw [State.afterBus_eq]
@[simp] theorem State.afterBus_inputs (s : State) : s.afterBus.inputs = s.inputs.tail := by rw [State.afterBus_eq]
@[simp] theorem State.afterBus_product (s : State) : s.afterBus.product = s.product := by rw [State.afterBus_eq]
@[simp] theorem State.afterBus_events (s : State) : s.afterBus.events = s.events := by rw [State.afterBus_eq]

/-! ### Which instruction a step runs -/

/-- Where nothing is accepted the boundary is left to the HALT mode or to an instruction (R216, R240). -/
theorem State.boundary_of_nothingAccepted {s : State} (h : NothingAccepted s) :
    s.boundary = if s.halted then .waiting s.afterBus else .run s.afterBus := by
  obtain ⟨hreset, hnmi, hint⟩ := h
  obtain ⟨hr, -⟩ | ⟨-, hn, hnp, -⟩ | ⟨req, -, -, hi, hnp, hid, -⟩ | ⟨-, -, -, hb⟩ := State.boundary_cases s
  · simp [hreset] at hr
  · simp [hnmi hn] at hnp
  · simp [hnp, hid, hi] at hint
  · exact hb

/-- An instruction runs only where nothing is accepted and the core is not halted. -/
theorem State.boundary_run {s u : State} (h : s.boundary = .run u) :
    NothingAccepted s ∧ s.halted = false ∧ u = s.afterBus := by
  obtain ⟨-, hb⟩ | ⟨-, -, -, hb⟩ | ⟨req, -, -, -, -, -, hb⟩ | ⟨hreset, hnmi, hint, hb⟩ := State.boundary_cases s
  · cases hb.symm.trans h
  · cases hb.symm.trans h
  · cases hb.symm.trans h
  · have hrun := hb.symm.trans h
    split at hrun
    · cases hrun
    · next hhalted =>
      cases hrun
      refine ⟨⟨hreset, fun hn => ?_, fun hi => ?_⟩, by simpa using hhalted, rfl⟩
      · simpa [nmiAccepted, hn] using hnmi
      · simpa [intAccepted, hi, or_iff_not_imp_left] using hint

theorem State.fetch_eq_ok_iff (s : State) (i : Instr) : s.fetch = .ok i ↔ DecodesTo s i := by
  unfold State.fetch DecodesTo
  cases hb : s.fetchBytes with
  | error e => simp
  | ok bytes =>
    cases hd : decode bytes with
    | error r => simp [hd]
    | ok p => simp [hd, Prod.ext_iff]

theorem State.boundary_of_runs {s : State} (h : NothingAccepted s) (hh : s.halted = false) :
    s.boundary = .run s.afterBus := by
  simp [State.boundary_of_nothingAccepted h, hh]

theorem step_of_runsInstruction {s : State} {i : Instr} (h : RunsInstruction s i) : step s = exec i s.afterBus := by
  obtain ⟨hnothing, hhalted, hdecodes⟩ := h
  simp [step, State.boundary_of_runs hnothing hhalted, (State.fetch_eq_ok_iff _ i).mpr hdecodes]

theorem step_of_fetch_error {s : State} {e : Stop} (h : NothingAccepted s) (hh : s.halted = false)
    (he : s.afterBus.fetch = .error e) : step s = e.result := by
  simp [step, State.boundary_of_runs h hh, he]

theorem State.boundary_entered {s t : State} (h : s.boundary = .entered t) :
    (s.nextInput.reset = true ∧ t = s.afterBus.takeReset) ∨ t = s.afterBus.takeNmi ∨ ∃ req, t = s.afterBus.takeInt req := by
  obtain ⟨hr, hb⟩ | ⟨-, -, -, hb⟩ | ⟨req, -, -, -, -, -, hb⟩ | ⟨-, -, -, hb⟩ := State.boundary_cases s
  · injection hb.symm.trans h with ht
    exact .inl ⟨hr, ht.symm⟩
  · injection hb.symm.trans h with ht
    exact .inr (.inl ht.symm)
  · injection hb.symm.trans h with ht
    exact .inr (.inr ⟨req, ht.symm⟩)
  · rw [hb] at h
    split at h <;> cases h

theorem State.boundary_waiting {s t : State} (h : s.boundary = .waiting t) : t = s.afterBus := by
  obtain ⟨-, hb⟩ | ⟨-, -, -, hb⟩ | ⟨req, -, -, -, -, -, hb⟩ | ⟨-, -, -, hb⟩ := State.boundary_cases s
  · cases hb.symm.trans h
  · cases hb.symm.trans h
  · cases hb.symm.trans h
  · rw [hb] at h
    split at h
    · injection h with ht
      exact ht.symm
    · cases h

/-- All that a step that answers can do: a reset, an interrupt entry, a wait, or the instruction at the pc. -/
theorem step_effect {s t : State} (h : step s = .next t) :
    (s.nextInput.reset = true ∧ t = s.afterBus.takeReset) ∨ t = s.afterBus.takeNmi ∨ (∃ req, t = s.afterBus.takeInt req) ∨
      t = s.afterBus ∨ ∃ i, RunsInstruction s i ∧ exec i s.afterBus = .next t := by
  obtain he | hw | ⟨u, i, hb, hf, hexec⟩ := step_cases h
  · obtain hr | hn | hi := State.boundary_entered he
    · exact .inl hr
    · exact .inr (.inl hn)
    · exact .inr (.inr (.inl hi))
  · exact .inr (.inr (.inr (.inl (State.boundary_waiting hw))))
  · obtain ⟨hnothing, hhalted, rfl⟩ := State.boundary_run hb
    exact .inr (.inr (.inr (.inr ⟨i, ⟨hnothing, hhalted, (State.fetch_eq_ok_iff _ i).mp hf⟩, hexec⟩)))

/-! ### Reset -/

/-- Settles O8: the fields of the reset state as R30 lists them. -/
theorem resetState : Obligations.ResetState := ⟨rfl, rfl, rfl, rfl, rfl, rfl, rfl⟩

/-- Settles O9: memory lists nothing, the pc is 0 and every cell is 0. -/
theorem resetIsWellFormed : Obligations.ResetIsWellFormed := (State.wf_iff State.reset).mpr ⟨rfl, rfl, rfl⟩

/-- Settles O53: a reset input makes the boundary's entry the reset event, which keeps memory, map, schedule and record. -/
theorem resetInput : Obligations.ResetInput := by
  intro s hreset
  have hstep : step s = .next s.afterBus.takeReset := by
    obtain ⟨-, hb⟩ | ⟨hr, -⟩ | ⟨req, hr, -⟩ | ⟨hr, -⟩ := State.boundary_cases s
    · simp [step, hb, State.afterBus]
    all_goals simp [hreset] at hr
  exact ⟨_, hstep, by simp, by simp, by simp, by simp, rfl, by simp, by simp, by simp, by simp, by simp⟩

/-! ### SAT over steps -/

/-- A step that changes SAT is a reset, which clears it, or runs one of the writers of SAT. -/
theorem step_sat_writers {s t : State} (h : step s = .next t) (hsat : Psw.sat t.psw ≠ Psw.sat s.psw) :
    (s.nextInput.reset = true ∧ Psw.sat t.psw = false) ∨ ∃ i, RunsInstruction s i ∧
      ((Saturating i ∧ Psw.ov t.psw = true ∧ Psw.sat t.psw = true) ∨ LoadsSysReg i 5#5 ∨ i = .reti) := by
  obtain ⟨hreset, rfl⟩ | rfl | ⟨req, rfl⟩ | rfl | ⟨i, hruns, hexec⟩ := step_effect h
  · exact .inl ⟨hreset, by rw [State.takeReset_psw]; rfl⟩
  · simp [State.takeNmi] at hsat
  · simp [State.takeInt] at hsat
  · simp at hsat
  · exact .inr ⟨i, hruns, exec_sat_writers hexec (by simpa using hsat)⟩

/-- After a saturated instruction SAT is what it was, or set by the instruction's own overflow (R24, R140). -/
theorem exec_saturating_sat {i : Instr} (hi : Saturating i) {s t : State} (h : exec i s = .next t) :
    Psw.sat t.psw = true ↔ Psw.sat s.psw = true ∨ Psw.ov t.psw = true := by
  obtain ⟨reg2, o, he⟩ := exec_saturating hi s
  cases he.symm.trans h
  simp

/-- Settles O11: the writers of SAT in a step, its rule for the saturated instructions, and condition `sa`. -/
theorem satIsCumulative : Obligations.SatIsCumulative := by
  refine ⟨fun s t => step_sat_writers, fun s t i hruns hi h => ?saturated, fun s reg2 d => ⟨Iff.rfl, ?setf, ?bsa⟩⟩
  case saturated =>
    rw [step_of_runsInstruction hruns] at h
    simpa using exec_saturating_sat hi h
  case setf => exact writesOnly_of_moveTo rfl
  case bsa => exact branch_jumpsTo .sa d s

/-! ### Stops of a fetch -/

theorem State.fetchHalf_readable {s : State} {a : PcVal} (h : ∀ j, j < 2 → readable s.product (a.toNat + j) = true) :
    s.fetchHalf a = .ok (Memory.read s.mem (a.toNat + 1) ++ Memory.read s.mem a.toNat) := by
  simp [State.fetchHalf, (allBytes_iff _ _ _).mpr h]

theorem State.fetchHalf_unmapped {s : State} {a : PcVal} (h : ∃ j, j < 2 ∧ readable s.product (a.toNat + j) = false) :
    s.fetchHalf a = .error (.fault (.unmappedFetch a)) := by
  simp [State.fetchHalf, (allBytes_eq_false_iff _ _ _).mpr h]

theorem State.fetch_of_fetchBytes_error {s : State} {e : Stop} (h : s.fetchBytes = .error e) : s.fetch = .error e := by
  simp [State.fetch, h]

theorem State.fetch_of_decode_error {s : State} {bytes : List Byte} {r : DecodeReject} (h : s.fetchBytes = .ok bytes)
    (hr : decode bytes = .error r) : s.fetch = .error (rejectStop s.pc r) := by
  simp [State.fetch, h, hr]

theorem State.fetchBytes_first_unmapped {s : State} (h : ∃ j, j < 2 ∧ readable s.product (s.pc.toNat + j) = false) :
    s.fetchBytes = .error (.fault (.unmappedFetch s.pc)) := by
  simp [State.fetchBytes, State.fetchHalf_unmapped h]

/-- A 32-bit instruction whose second half-word lies past the end of program space (R15, D3). -/
theorem State.fetchBytes_straddles {s : State} (h : ∀ j, j < 2 → readable s.product (s.pc.toNat + j) = true)
    (hl : isLong (Memory.read s.mem (s.pc.toNat + 1) ++ Memory.read s.mem s.pc.toNat) = true)
    (htop : 16777216 ≤ s.pc.toNat + 2) : s.fetchBytes = .error (.refusal .fetchStraddlesTop) := by
  simp [State.fetchBytes, State.fetchHalf_readable h, hl, htop]

theorem State.fetchBytes_second_unmapped {s : State} (h : ∀ j, j < 2 → readable s.product (s.pc.toNat + j) = true)
    (hl : isLong (Memory.read s.mem (s.pc.toNat + 1) ++ Memory.read s.mem s.pc.toNat) = true)
    (htop : s.pc.toNat + 2 < 16777216)
    (hu : ∃ j, j < 2 ∧ readable s.product (s.pc.toNat + 2 + j) = false) :
    s.fetchBytes = .error (.fault (.unmappedFetch (s.pc + 2#24))) := by
  have ha : (s.pc + 2#24).toNat = s.pc.toNat + 2 := by
    rw [BitVec.toNat_add]
    exact Nat.mod_eq_of_lt htop
  simp [State.fetchBytes, State.fetchHalf_readable h, hl, Nat.not_le.mpr htop, State.fetchHalf_unmapped (ha ▸ hu)]

/-- Settles O57: each clause names the stop of `fetch`, and a step that cannot fetch stops as the fetch does. -/
theorem stepRefusesUndefinedCodes : Obligations.StepRefusesUndefinedCodes := by
  intro s bytes hnothing hhalted
  have hstops {e : Stop} : s.afterBus.fetch = .error e → step s = e.result := step_of_fetch_error hnothing hhalted
  have hpc := State.afterBus_pc s
  have hmap := State.afterBus_product s
  rw [← hpc, ← hmap]
  refine ⟨?unrecognised, ?reservedField, ?straddles, ?first, ?second⟩
  case unrecognised => exact fun hb hd => hstops (State.fetch_of_decode_error hb hd)
  case reservedField => exact fun hb hd => hstops (State.fetch_of_decode_error hb hd)
  case straddles =>
    intro htop h0 h1 hl
    have htop' : s.afterBus.pc.toNat = 16777214 := by rw [htop]; rfl
    refine hstops (State.fetch_of_fetchBytes_error (State.fetchBytes_straddles ?_ ?_ ?_))
    · intro j hj
      rw [htop']
      interval_cases j
      · exact h0
      · exact h1
    · rwa [htop']
    · omega
  case first => exact fun hu => hstops (State.fetch_of_fetchBytes_error (State.fetchBytes_first_unmapped hu))
  case second =>
    exact fun hr hl htop hu => hstops (State.fetch_of_fetchBytes_error (State.fetchBytes_second_unmapped hr hl htop hu))

end Sys2Proof.Machine
end

section
/-!
PROOFS. Where an instruction stops, by the way it ends: an access stops where `State.load_stops_iff` and `State.store_stops_iff` say,
a system register move where its number is refused, and nothing else stops.
-/

namespace Sys2Proof.Machine

theorem safe_next (t : State) : Safe (.next t) := ⟨t, rfl⟩

theorem Stop.not_safe_result (e : Stop) : ¬ Safe e.result := by
  rintro ⟨t, h⟩
  cases e <;> cases h

theorem loadInto_not_safe_iff (w : Width) (adr : Word) (reg2 : Reg) (n : Nat) (s : State) :
    ¬ Safe (loadInto w adr reg2 n s) ↔ UnmappedAt s w (w.align adr) := by
  rw [← State.load_stops_iff, loadInto]
  cases s.load w adr with
  | ok p => simp [safe_next]
  | error e => simp [Stop.not_safe_result]

theorem execTst1_not_safe_iff (bit3 : BitVec 3) (disp16 : BitVec 16) (reg1 : Reg) (s : State) :
    ¬ Safe (execTst1 bit3 disp16 reg1 s) ↔ UnmappedAt s .byte (Width.align .byte (s.eaBased reg1 disp16)) := by
  rw [← State.load_stops_iff, execTst1]
  cases s.load .byte (s.eaBased reg1 disp16) with
  | ok p => simp [safe_next]
  | error e => simp [Stop.not_safe_result]

theorem storeFrom_not_safe_iff (w : Width) (adr : Word) (reg2 : Reg) (n : Nat) (s : State) :
    ¬ Safe (storeFrom w adr reg2 n s) ↔ UnmappedAt s w (w.align adr) ∨ TouchesRomAt s w (w.align adr) := by
  rw [← State.store_stops_iff (v := s.reg reg2), storeFrom]
  cases s.store w adr (s.reg reg2) with
  | ok t => simp [safe_next]
  | error e => simp [Stop.not_safe_result]

/-- A bit modification stops as a store does: its read stops only where its write would (D11). -/
theorem bitModify_not_safe_iff (f : Bool → Bool) (bit3 : BitVec 3) (disp16 : BitVec 16) (reg1 : Reg) (s : State) :
    ¬ Safe (bitModify f bit3 disp16 reg1 s) ↔
      UnmappedAt s .byte (Width.align .byte (s.eaBased reg1 disp16)) ∨
        TouchesRomAt s .byte (Width.align .byte (s.eaBased reg1 disp16)) := by
  unfold bitModify
  dsimp only
  cases hl : s.load .byte (s.eaBased reg1 disp16) with
  | error e => exact iff_of_true (Stop.not_safe_result e) (.inl (State.load_stops_iff.mp ⟨e, hl⟩))
  | ok p =>
    obtain ⟨v, t⟩ := p
    have hmap : t.product = s.product := (State.load_sameStore hl).1
    have hstore := State.store_stops_iff (s := t) (w := .byte) (adr := s.eaBased reg1 disp16)
      (v := withBit v bit3.toNat (f (v.getLsbD bit3.toNat)))
    simp only [UnmappedAt, TouchesRomAt, ReadableAt, hmap] at hstore ⊢
    rw [← hstore]
    cases t.store .byte (s.eaBased reg1 disp16) (withBit v bit3.toNat (f (v.getLsbD bit3.toNat))) with
    | ok u => simp [safe_next]
    | error e => simp [Stop.not_safe_result]

theorem execLdsr_not_safe_iff (reg2 : Reg) (n : BitVec 5) (s : State) :
    ¬ Safe (execLdsr reg2 n s) ↔ n.toNat = 4 ∨ 6 ≤ n.toNat := by
  unfold execLdsr
  split
  · next h => exact iff_of_true (Stop.not_safe_result (.refusal _)) (.inr ((SysReg.ofId_eq_none_iff n).mp h))
  · next h =>
    rw [(SysReg.ofId_eq_some_iff n .ecr).mp h]
    exact iff_of_true (Stop.not_safe_result (.refusal _)) (.inl rfl)
  · next r hecr h =>
    rw [(SysReg.ofId_eq_some_iff n r).mp h]
    refine iff_of_false (not_not.mpr (safe_next _)) ?_
    cases r with
    | ecr => exact absurd rfl hecr
    | _ => decide

theorem execStsr_not_safe_iff (n : BitVec 5) (reg2 : Reg) (s : State) : ¬ Safe (execStsr n reg2 s) ↔ 6 ≤ n.toNat := by
  rw [← SysReg.ofId_eq_none_iff, execStsr]
  cases SysReg.ofId n with
  | none => exact iff_of_true (Stop.not_safe_result (.refusal _)) rfl
  | some r => simp [safe_next]

theorem execDivh_safe (reg1 reg2 : Reg) (s : State) : Safe (execDivh reg1 reg2 s) := by
  unfold execDivh
  dsimp only
  split <;> exact safe_next _

/-- Settles O16: the cases of the right side are those of the instruction's own ending. -/
theorem instructionsRunToTheirEnd : Obligations.InstructionsRunToTheirEnd := by
  intro i s
  cases i with
  | sldB | sldH | sldW | ldB | ldH | ldW =>
    exact (loadInto_not_safe_iff _ _ _ _ s).trans (by simp [StoresAt, ReadsAt, LoadsSysReg])
  | tst1 => exact (execTst1_not_safe_iff _ _ _ s).trans (by simp [StoresAt, ReadsAt, LoadsSysReg])
  | sstB | sstH | sstW | stB | stH | stW =>
    exact (storeFrom_not_safe_iff _ _ _ _ s).trans (by simp [StoresAt, ReadsAt, LoadsSysReg])
  | set1 => exact (bitModify_not_safe_iff (fun _ => true) _ _ _ s).trans (by simp [StoresAt, ReadsAt, LoadsSysReg])
  | clr1 => exact (bitModify_not_safe_iff (fun _ => false) _ _ _ s).trans (by simp [StoresAt, ReadsAt, LoadsSysReg])
  | not1 => exact (bitModify_not_safe_iff (fun old => !old) _ _ _ s).trans (by simp [StoresAt, ReadsAt, LoadsSysReg])
  | ldsr => exact (execLdsr_not_safe_iff _ _ s).trans (by simp [StoresAt, ReadsAt, LoadsSysReg])
  | stsr => exact (execStsr_not_safe_iff _ _ s).trans (by simp [StoresAt, ReadsAt, LoadsSysReg])
  | divh => exact iff_of_false (not_not.mpr (execDivh_safe _ _ s)) (by simp [StoresAt, ReadsAt, LoadsSysReg])
  | _ =>
    -- No access and no system register: the instruction answers a next state by its definition.
    exact iff_of_false (not_not.mpr (safe_next _)) (by simp [StoresAt, ReadsAt, LoadsSysReg])

end Sys2Proof.Machine
end

section
/-!
PROOFS. Table 5-10 against the lengths: its rows, its bytes column, and the moves of the pc read off `exec_effect`.
-/

namespace Sys2Proof.Machine

theorem encodeBytes_length (i : Instr) : (encodeBytes i).length = i.length := by cases i <;> rfl

theorem Clocks.ldsr_eq_none_iff (n : BitVec 5) : Clocks.ldsr n = none ↔ n.toNat = 4 ∨ 6 ≤ n.toNat := by
  revert n; decide

theorem Clocks.stsr_eq_none_iff (n : BitVec 5) : Clocks.stsr n = none ↔ 6 ≤ n.toNat := by
  rw [Clocks.stsr, Option.map_eq_none_iff, SysReg.ofId_eq_none_iff]

theorem tableClocks_eq_none_iff (p : Psw) (i : Instr) :
    tableClocks p i = none ↔
      (∃ n, LoadsSysReg i n ∧ (n.toNat = 4 ∨ 6 ≤ n.toNat)) ∨ (∃ n reg2, i = .stsr n reg2 ∧ 6 ≤ n.toNat) := by
  cases i with
  | ldsr reg2 n => exact (Clocks.ldsr_eq_none_iff n).trans (by simp [LoadsSysReg])
  | stsr n reg2 => exact (Clocks.stsr_eq_none_iff n).trans (by simp [LoadsSysReg])
  | _ => simp [tableClocks, LoadsSysReg]

theorem Clocks.bcond_bytes (taken : Bool) : (Clocks.bcond taken).bytes = 2 := by cases taken <;> rfl

theorem tableClocks_bytes {p : Psw} {i : Instr} {c : Clocks} (h : tableClocks p i = some c) : c.bytes = i.length := by
  cases i with
  | ldsr reg2 n =>
    change Clocks.ldsr n = some c at h
    unfold Clocks.ldsr at h
    split at h <;> cases h <;> rfl
  | stsr n reg2 =>
    obtain ⟨r, -, rfl⟩ := Option.map_eq_some_iff.mp h
    rfl
  | bv | bl | be | bnh | bn | br | blt | ble | bnv | bnl | bne | bh | bp | bsa | bge | bgt =>
    cases h
    exact Clocks.bcond_bytes _
  | _ => cases h; rfl

/-- An instruction that completes and transfers no control moves the pc past itself (R15). -/
theorem exec_pastPc {i : Instr} {s t : State} (h : exec i s = .next t) (hi : ¬ TransfersControl i s) :
    PastPc i.length s t := by
  cases exec_effect h with
  | goesOn hgo => exact hgo.past
  | jumps hjump => exact absurd hjump hi
  | saturates _ reg2 o ht => rw [ht]; rfl
  | writesId b _ ht => rw [ht]; rfl
  | loadsSys reg2 n r _ _ ht => simp [PastPc, ht]
  | excepts hex => exact absurd (.inr (.inr (.inr (.inr (.inl hex))))) hi
  | returns hreti => exact absurd (.inr (.inr (.inr (.inl hreti)))) hi

/-- Settles O58: a row's bytes are the length, past which the pc, the restore PC and the link go. -/
theorem clockTableBytesAreLengths : Obligations.ClockTableBytesAreLengths := by
  refine fun i s => ⟨tableClocks_eq_none_iff s.psw i, fun c hc => ?row⟩
  have hbytes := tableClocks_bytes hc
  refine ⟨hbytes, (encodeBytes_length i).trans hbytes.symm, fun t h => ⟨?goesOn, ?excepts, ?links⟩⟩
  case goesOn => exact fun hi => hbytes ▸ exec_pastPc h hi
  case excepts =>
    intro hi
    have hlen : i.length = 4 := by obtain ⟨v, rfl⟩ | ⟨a, b, d, sub, e, rfl⟩ := hi <;> rfl
    obtain ⟨e, hbank, hrestore, he⟩ := exec_exceptionInstr hi s
    cases he.symm.trans h
    simp [hbank, hrestore, hbytes, hlen]
  case links =>
    rintro d reg2 rfl
    rw [hbytes]
    exact exec_jarl_link h

end Sys2Proof.Machine
end

section
/-!
PROOFS. The accesses to data memory and to the instruction stream: byte order, the alignment mask, the bytes of a fetch and the bytes
other bus agents write.
-/

namespace Sys2Proof.Machine

/-! ### Byte order (R42) -/

/-- Byte `j` of a word of four bytes. -/
theorem extract_four_bytes (b3 b2 b1 b0 : Byte) {j : Nat} (hj : j < 4) :
    (b3 ++ b2 ++ b1 ++ b0).extractLsb' (8 * j) 8 = [b0, b1, b2, b3][j] := by
  interval_cases j
  · exact (BitVec.extractLsb'_append_eq_of_add_le (by decide)).trans BitVec.extractLsb'_eq_self
  · rw [BitVec.extractLsb'_append_eq_of_le (by decide)]
    exact (BitVec.extractLsb'_append_eq_of_add_le (by decide)).trans BitVec.extractLsb'_eq_self
  · rw [BitVec.extractLsb'_append_eq_of_le (by decide), BitVec.extractLsb'_append_eq_of_le (by decide)]
    exact extract_low_byte b3 b2
  · rw [BitVec.extractLsb'_append_eq_of_le (by decide), BitVec.extractLsb'_append_eq_of_le (by decide)]
    exact extract_high_byte b3 b2

/-- Byte `j` of a datum read is the byte at its address plus `j`. -/
theorem Memory.extract_readLE (m : List Host.Cell) (a : Nat) {w : Width} {j : Nat} (hj : j < w.bytes) :
    (Memory.readLE m a w).extractLsb' (8 * j) 8 = Memory.read m (a + j) := by
  cases w with
  | byte =>
    obtain rfl : j = 0 := Nat.lt_one_iff.mp hj
    exact (BitVec.extractLsb'_setWidth_of_le (by decide)).trans BitVec.extractLsb'_eq_self
  | half =>
    have hj2 : j < 2 := hj
    rw [Memory.readLE, BitVec.zeroExtend, BitVec.extractLsb'_setWidth_of_le (by omega)]
    interval_cases j
    · exact extract_low_byte _ _
    · exact extract_high_byte _ _
  | word =>
    have hj4 : j < 4 := hj
    refine (extract_four_bytes _ _ _ _ hj4).trans ?_
    interval_cases j <;> rfl

/-- A field of a word with the byte below it joined. -/
theorem extract_append_low_byte (v : Word) {start low len : Nat} (h : start = low + 8) :
    v.extractLsb' start len ++ v.extractLsb' low 8 = v.extractLsb' low (len + 8) :=
  BitVec.extractLsb'_append_extractLsb'_eq_extractLsb' h

/-- A datum whose bytes are those of `v` is the low bits of `v`. -/
theorem Memory.readLE_eq_low {m : List Host.Cell} {a : Nat} {w : Width} {v : Word}
    (h : ∀ j, j < w.bytes → Memory.read m (a + j) = v.extractLsb' (8 * j) 8) : Memory.readLE m a w = w.low v := by
  cases w with
  | byte => exact congrArg (BitVec.zeroExtend 32) (h 0 (by decide))
  | half =>
    have h0 : Memory.read m a = v.extractLsb' 0 8 := h 0 (by decide)
    have h1 : Memory.read m (a + 1) = v.extractLsb' 8 8 := h 1 (by decide)
    rw [Memory.readLE, Width.low, h0, h1, extract_append_low_byte v (start := 8) (low := 0) rfl]
  | word =>
    have h0 : Memory.read m a = v.extractLsb' 0 8 := h 0 (by decide)
    have h1 : Memory.read m (a + 1) = v.extractLsb' 8 8 := h 1 (by decide)
    have h2 : Memory.read m (a + 2) = v.extractLsb' 16 8 := h 2 (by decide)
    have h3 : Memory.read m (a + 3) = v.extractLsb' 24 8 := h 3 (by decide)
    rw [Memory.readLE, h0, h1, h2, h3, extract_append_low_byte v (start := 24) (low := 16) rfl,
      extract_append_low_byte v (start := 16) (low := 8) rfl, extract_append_low_byte v (start := 8) (low := 0) rfl]
    exact BitVec.extractLsb'_eq_self

theorem Width.getElem_toBytes (w : Width) (v : Word) {j : Nat} (hj : j < (w.toBytes v).length) :
    (w.toBytes v)[j] = v.extractLsb' (8 * j) 8 := by
  cases w with
  | byte =>
    have hj1 : j < 1 := hj
    interval_cases j
    rfl
  | half =>
    have hj2 : j < 2 := hj
    interval_cases j <;> rfl
  | word =>
    have hj4 : j < 4 := hj
    interval_cases j <;> rfl

/-- Byte `j` of a datum written stands at its address plus `j`. -/
theorem Memory.read_writeLE_inside {m : List Host.Cell} {a : Nat} {w : Width} (v : Word) (hm : Memory.wf m = true)
    (ha : a + w.bytes ≤ 2 ^ 32) {j : Nat} (hj : j < w.bytes) :
    Memory.read (Memory.writeLE m a w v) (a + j) = v.extractLsb' (8 * j) 8 := by
  have hlen : (w.toBytes v).length = w.bytes := Width.toBytes_length w v
  exact (Memory.read_writeBytes_inside _ hm (hlen ▸ ha) (hlen ▸ hj)).trans (Width.getElem_toBytes w v (hlen ▸ hj))

/-- Settles O31: byte `j` of a read and of a write, and from the bytes written the datum read back. -/
theorem byteOrderIsLittleEndian : Obligations.ByteOrderIsLittleEndian := by
  refine fun m a v w j hj => ⟨Memory.extract_readLE m a hj, fun hm ha => ?_⟩
  have hbytes : ∀ k, k < w.bytes → Memory.read (Memory.writeLE m a w v) (a + k) = v.extractLsb' (8 * k) 8 :=
    fun k hk => Memory.read_writeLE_inside v hm ha hk
  exact ⟨hbytes j hj, Memory.readLE_eq_low hbytes⟩

/-! ### The alignment mask (R44) -/

/-- Clearing the low `n` bits of an address rounds it down to a multiple of 2^n. -/
theorem toNat_and_highMask (adr : Word) (n : Nat) :
    (adr &&& BitVec.allOnes 32 <<< n).toNat = adr.toNat - adr.toNat % 2 ^ n := by
  have hbound : adr.toNat / 2 ^ n * 2 ^ n ≤ adr.toNat := Nat.div_mul_le_self _ _
  have hlt : adr.toNat < 2 ^ 32 := adr.isLt
  rw [← BitVec.shiftLeft_ushiftRight, BitVec.toNat_shiftLeft, BitVec.toNat_ushiftRight, Nat.shiftLeft_eq,
    Nat.shiftRight_eq_div_pow, Nat.mod_eq_of_lt (by omega)]
  exact Nat.div_mul_self_eq_mod_sub_self

theorem Width.toNat_align (w : Width) (adr : Word) : (w.align adr).toNat = adr.toNat - adr.toNat % w.bytes := by
  cases w with
  | byte => simp [Width.bytes, Nat.mod_one]
  | half => exact toNat_and_highMask adr 1
  | word => exact toNat_and_highMask adr 2

theorem State.load_align (s : State) (w : Width) (adr : Word) : s.load w (w.align adr) = s.load w adr := by
  simp [State.load]

theorem State.store_align (s : State) (w : Width) (adr v : Word) : s.store w (w.align adr) v = s.store w adr v := by
  simp [State.store]

/-- What a load that answers from below the peripheral area answers. -/
theorem State.load_eq_readLE {s t : State} {w : Width} {adr d : Word} (h : s.load w adr = .ok (d, t))
    (hp : isPeripheral (w.align adr).toNat = false) : d = Memory.readLE s.mem (w.align adr).toNat w ∧ t = s := by
  by_cases hr : ∀ j, j < w.bytes → readable s.product ((w.align adr).toNat + j) = true
  · rw [State.load_memory hp hr] at h
    cases h
    exact ⟨rfl, rfl⟩
  · simp only [not_forall, Bool.not_eq_true] at hr
    obtain ⟨j, hj, hu⟩ := hr
    rw [State.load_unmapped hp ⟨j, hj, hu⟩] at h
    cases h

theorem State.store_memKeptOutside {s t : State} {w : Width} {adr v : Word} (h : s.store w adr v = .ok t) :
    MemKeptOutside (w.align adr).toNat w.bytes s t := by
  obtain rfl | rfl := State.store_cases h
  · exact fun _ _ => rfl
  · exact fun k hk => Memory.read_writeLE_outside s.mem w v hk

/-- Settles O32: the mask rounds down, an access sees its masked address only, and its bytes are those from there. -/
theorem accessesAreAligned : Obligations.AccessesAreAligned := by
  intro s w adr v
  rw [← Width.toNat_align]
  refine ⟨rfl, (State.load_align s w adr).symm, (State.store_align s w adr v).symm, ?read, fun t => State.store_memKeptOutside⟩
  case read =>
    intro d t j h hp hj
    rw [(State.load_eq_readLE h hp).1]
    exact Memory.extract_readLE s.mem _ hj

/-! ### The bytes of a fetch (R41, R45, R61) -/

theorem State.fetchHalf_ok {s : State} {a : PcVal} {h0 : Half} (h : s.fetchHalf a = .ok h0) :
    h0 = Memory.read s.mem (a.toNat + 1) ++ Memory.read s.mem a.toNat := by
  unfold State.fetchHalf at h
  split at h
  · exact (Except.ok.inj h).symm
  · cases h

theorem toNat_pc_add_two {pc : PcVal} (h : pc.toNat + 2 < 16777216) : (pc + 2#24).toNat = pc.toNat + 2 := by
  rw [BitVec.toNat_add]
  exact Nat.mod_eq_of_lt h

/-- All that a fetch that answers can give: two bytes of memory, or four, as the first half-word says. -/
theorem State.fetchBytes_ok {s : State} {bytes : List Byte} (h : s.fetchBytes = .ok bytes) :
    bytes = (List.range (if isLong (Memory.read s.mem (s.pc.toNat + 1) ++ Memory.read s.mem s.pc.toNat) then 4 else 2)).map
      fun j => Memory.read s.mem (s.pc.toNat + j) := by
  unfold State.fetchBytes at h
  split at h
  · cases h
  · next h0 hfirst =>
    rw [← State.fetchHalf_ok hfirst]
    split at h
    · next hlong =>
      split at h
      · cases h
      · next htop =>
        split at h
        · cases h
        · next h1 hsecond =>
          have hpc : (s.pc + 2#24).toNat = s.pc.toNat + 2 := toNat_pc_add_two (Nat.not_le.mp htop)
          cases h
          rw [if_pos hlong, State.fetchHalf_ok hfirst, State.fetchHalf_ok hsecond, hpc, halfBytes_join, halfBytes_join]
          rfl
    · next hshort =>
      cases h
      rw [if_neg hshort, State.fetchHalf_ok hfirst, halfBytes_join]
      rfl

/-- Four readable bytes below the end of program space are enough for a fetch to answer. -/
theorem State.fetchBytes_answers {s : State} (h : ∀ j, j < 4 → readable s.product (s.pc.toNat + j) = true)
    (htop : s.pc.toNat + 2 < 16777216) : ∃ bytes, s.fetchBytes = .ok bytes := by
  have hfirst := State.fetchHalf_readable (s := s) (a := s.pc) fun j hj => h j (by omega)
  have hpc := toNat_pc_add_two htop
  have hsecond := State.fetchHalf_readable (s := s) (a := s.pc + 2#24) fun j hj => by
    rw [hpc, Nat.add_assoc]
    exact h (2 + j) (by omega)
  have hbelow : ¬ 2 ^ 24 ≤ s.pc.toNat + 2 := Nat.not_le.mpr htop
  simp only [State.fetchBytes, hfirst, hsecond, if_neg hbelow]
  split <;> exact ⟨_, rfl⟩

/-- Settles O56: what a fetch answers, and where it does. -/
theorem fetchReadsMemory : Obligations.FetchReadsMemory := by
  refine fun s => ⟨fun bytes h => ?_, State.fetchBytes_answers⟩
  rw [State.fetchBytes_ok h]
  refine ⟨by simp, fun j hj => ?_⟩
  rw [List.length_map, List.length_range] at hj
  rw [List.getElem?_map, List.getElem?_range hj]
  rfl

/-! ### The bytes of other bus agents (D7) -/

/-- A byte that no other bus agent reaches: in ROM or RAM, or outside EXTERNAL_RANGES (D7, log 15). -/
def BusProtected (p : Config.Product) (a : Nat) : Prop := inRom p a = true ∨ inRam p a = true ∨ inExternal p a = false

theorem State.busWrite_read {s : State} (c : Host.Cell) {a : Nat} (ha : BusProtected s.product a) :
    Memory.read (s.busWrite c).mem a = Memory.read s.mem a := by
  unfold State.busWrite
  split
  · next hc =>
    refine Memory.read_write_ne c.2 ?_ s.mem
    rintro rfl
    obtain hrom | hram | hext := ha
    · simp [hrom] at hc
    · simp [hram] at hc
    · simp [hext] at hc
  · rfl

theorem State.busWrites_read (ws : List Host.Cell) {s : State} {a : Nat} (ha : BusProtected s.product a) :
    Memory.read (State.busWrites ws s).mem a = Memory.read s.mem a := by
  induction ws generalizing s with
  | nil => rfl
  | cons c cs ih =>
    have hmap : (s.busWrite c).product = s.product := (State.busWrite_romKept c s).1
    exact (ih (hmap ▸ ha)).trans (State.busWrite_read c ha)

/-- Settles O54: the boundary's writes pass over the protected bytes and touch the schedule and memory alone. -/
theorem busWritesReachExternalOnly : Obligations.BusWritesReachExternalOnly :=
  fun s _ => ⟨State.busWrites_read s.nextInput.busWrites (s := s.dropInput), State.afterBus_eq s⟩

end Sys2Proof.Machine
end

section
/-!
PROOFS. The six loads, the six stores and the bit instructions, each by the case of its access: memory that the map allows, the
peripheral area, or a stop. A case is said once for the ending that instructions share, and the obligations list the instructions
that end so. Then which instructions have an access at all.
-/

namespace Sys2Proof.Machine

/-- After a peripheral access with no register result, new flags and the pc moved on: registers, memory and mode are as before. -/
theorem kept_of_peripheralAccess {s t : State} {n : Nat}
    (h : t = (({ s with freeCount := t.freeCount, events := t.events } : State).setPsw t.psw).advance n) :
    RegsKept [] s t ∧ SysKept s t ∧ MemKept s t ∧ ModeKept s t ∧ PastPc n s t := by
  rw [h]
  exact ⟨fun _ _ => rfl, ⟨rfl, rfl, rfl, rfl, rfl, rfl⟩, fun _ => rfl, ⟨rfl, rfl, rfl⟩, rfl⟩

/-! ### Loads -/

theorem Width.extend_readLE (m : List Host.Cell) (a : Nat) (w : Width) : w.extend (Memory.readLE m a w) = loadedValue m a w := by
  cases w with
  | byte => exact congrArg (BitVec.signExtend 32) (Memory.extract_readLE m a (w := .byte) (j := 0) (by decide))
  | half =>
    rw [Width.extend, Memory.readLE, BitVec.zeroExtend, BitVec.extractLsb'_setWidth_of_le (by decide), BitVec.extractLsb'_eq_self]
    rfl
  | word => rfl

theorem Width.extend_low (w : Width) (v : Word) : w.extend (w.low v) = w.extend v := by
  cases w with
  | byte | half =>
    rw [Width.extend, Width.low, BitVec.zeroExtend, BitVec.extractLsb'_setWidth_of_le (by decide), BitVec.extractLsb'_eq_self]
    rfl
  | word => rfl

theorem loadsFromMemory_of_loadInto {i : Instr} {s : State} {w : Width} {adr : Word} {reg2 : Reg} {n : Nat}
    (h : exec i s = loadInto w adr reg2 n s) : LoadsFromMemory i s w adr reg2 n := by
  rintro ⟨hp, hr⟩
  apply writesOnly_of_moveTo
  rw [h, loadInto, State.load_memory hp hr, ← Width.extend_readLE]
  rfl

theorem loadsFromPeripheral_of_loadInto {i : Instr} {s : State} {w : Width} {adr : Word} {reg2 : Reg} {n : Nat}
    (h : exec i s = loadInto w adr reg2 n s) : LoadsFromPeripheral i s w adr reg2 n := by
  intro hp
  rw [loadInto, State.load_peripheral hp] at h
  dsimp only at h
  rw [Width.extend_low] at h
  obtain ⟨⟨hregs, hsys, hmem, hmode, -⟩, hwritten, hpsw⟩ :=
    frameBut_of_write (s := (s.emit (.ioRead w (w.align adr))).tick) (reg2 := reg2)
      (v := w.extend (Config.peripheralRead s.freeCount (w.align adr))) (p := s.psw)
      (a := s.pc + BitVec.ofNat 24 n) rfl
  exact ⟨_, h, hwritten, hpsw, rfl, rfl, hregs, hsys, hmem, hmode, rfl⟩

theorem loadStops_of_loadInto {i : Instr} {s : State} {w : Width} {adr : Word} {reg2 : Reg} {n : Nat}
    (h : exec i s = loadInto w adr reg2 n s) : LoadStops i s w adr := by
  rintro ⟨hp, hu⟩
  rw [h, loadInto, State.load_unmapped hp hu]
  rfl

/-- Settles O33: each load ends in `loadInto` at its own address. -/
theorem loadsReadMemory : Obligations.LoadsReadMemory := fun _ _ _ _ _ _ =>
  ⟨loadsFromMemory_of_loadInto rfl, loadsFromMemory_of_loadInto rfl, loadsFromMemory_of_loadInto rfl,
    loadsFromMemory_of_loadInto rfl, loadsFromMemory_of_loadInto rfl, loadsFromMemory_of_loadInto rfl⟩

/-- Settles O34: each load ends in `loadInto` at its own address. -/
theorem loadsReadPeripherals : Obligations.LoadsReadPeripherals := fun _ _ _ _ _ _ =>
  ⟨loadsFromPeripheral_of_loadInto rfl, loadsFromPeripheral_of_loadInto rfl, loadsFromPeripheral_of_loadInto rfl,
    loadsFromPeripheral_of_loadInto rfl, loadsFromPeripheral_of_loadInto rfl, loadsFromPeripheral_of_loadInto rfl⟩

/-! ### Stores -/

theorem storesToMemory_of_storeFrom {i : Instr} {s : State} {w : Width} {adr : Word} {reg2 : Reg} {n : Nat}
    (h : exec i s = storeFrom w adr reg2 n s) : StoresToMemory i s w adr reg2 n := by
  rintro ⟨hp, hw⟩ hm
  have hstore := State.store_memory (v := s.reg reg2) hp hw
  rw [storeFrom, hstore] at h
  exact ⟨_, h, fun j hj => Memory.read_writeLE_inside _ hm (Width.align_bound w adr) hj,
    fun k hk => State.store_memKeptOutside hstore k hk, rfl, fun _ _ => rfl, ⟨rfl, rfl, rfl, rfl, rfl, rfl⟩,
    ⟨rfl, rfl, rfl⟩, ⟨rfl, rfl⟩, rfl⟩

theorem storesToPeripheral_of_storeFrom {i : Instr} {s : State} {w : Width} {adr : Word} {reg2 : Reg} {n : Nat}
    (h : exec i s = storeFrom w adr reg2 n s) : StoresToPeripheral i s w adr reg2 n := by
  intro hp
  rw [storeFrom, State.store_peripheral hp] at h
  exact ⟨_, h, rfl, rfl, rfl, kept_of_peripheralAccess rfl⟩

/-- A store into readable memory with a byte in ROM (D11, log 5). -/
theorem State.store_touchesRom {s : State} {w : Width} {adr v : Word} (h : TouchesRomAt s w (w.align adr)) :
    s.store w adr v = .error (.refusal (.storeToRom (w.align adr))) := by
  obtain ⟨⟨hp, hr⟩, j, hj, hrom⟩ := h
  exact State.store_rom hp hr ⟨j, hj, by simp [writable, hrom]⟩

theorem storeStops_of_storeFrom {i : Instr} {s : State} {w : Width} {adr : Word} {reg2 : Reg} {n : Nat}
    (h : exec i s = storeFrom w adr reg2 n s) : StoreStops i s w adr := by
  refine ⟨?unmapped, ?rom⟩
  case unmapped =>
    rintro ⟨hp, hu⟩
    rw [h, storeFrom, State.store_unmapped hp hu]
    rfl
  case rom =>
    intro hrom
    rw [h, storeFrom, State.store_touchesRom hrom]
    rfl

/-- Settles O35: each store ends in `storeFrom` at its own address. -/
theorem storesWriteMemory : Obligations.StoresWriteMemory := fun _ _ _ _ _ _ =>
  ⟨storesToMemory_of_storeFrom rfl, storesToMemory_of_storeFrom rfl, storesToMemory_of_storeFrom rfl,
    storesToMemory_of_storeFrom rfl, storesToMemory_of_storeFrom rfl, storesToMemory_of_storeFrom rfl⟩

/-- Settles O36: each store ends in `storeFrom` at its own address. -/
theorem storesReachPeripherals : Obligations.StoresReachPeripherals := fun _ _ _ _ _ _ =>
  ⟨storesToPeripheral_of_storeFrom rfl, storesToPeripheral_of_storeFrom rfl, storesToPeripheral_of_storeFrom rfl,
    storesToPeripheral_of_storeFrom rfl, storesToPeripheral_of_storeFrom rfl, storesToPeripheral_of_storeFrom rfl⟩

/-! ### Bit instructions -/

/-- A bit of a word after one bit is replaced. -/
theorem getLsbD_withBit (v : Word) {k j : Nat} (b : Bool) (hj : j < 32) :
    (withBit v k b).getLsbD j = if j = k then b else v.getLsbD j := by
  cases b <;> by_cases h : j = k
  · simp [withBit, h]
  · simp [withBit, h, hj]
  · simp [withBit, ← h, hj]
  · simp [withBit, h, Ne.symm h]

theorem Width.getLsbD_low_byte (v : Word) {k : Nat} (hk : k < 8) : (Width.low .byte v).getLsbD k = v.getLsbD k := by
  have hk32 : k < 32 := by omega
  simp [Width.low, hk, hk32]

theorem Memory.getLsbD_readLE_byte (m : List Host.Cell) (a : Nat) {k : Nat} (hk : k < 8) :
    (Memory.readLE m a .byte).getLsbD k = (Memory.read m a).getLsbD k := by
  have hk32 : k < 32 := by omega
  simp [Memory.readLE, hk32]

theorem execTst1_of_load {s t : State} {bit3 : BitVec 3} {d : BitVec 16} {reg1 : Reg} {v : Word}
    (h : s.load .byte (s.eaBased reg1 d) = .ok (v, t)) :
    execTst1 bit3 d reg1 s = .next ((t.setPsw (Psw.setZ (!v.getLsbD bit3.toNat) t.psw)).advance 4) := by
  rw [execTst1, h]

/-- A bit instruction whose read and write both answer (R184). -/
theorem bitModify_of_accesses {s t u : State} {f : Bool → Bool} {bit3 : BitVec 3} {d : BitVec 16} {reg1 : Reg} {v : Word}
    (hload : s.load .byte (s.eaBased reg1 d) = .ok (v, t))
    (hstore : t.store .byte (s.eaBased reg1 d) (withBit v bit3.toNat (f (v.getLsbD bit3.toNat))) = .ok u) :
    bitModify f bit3 d reg1 s = .next ((u.setPsw (Psw.setZ (!v.getLsbD bit3.toNat) u.psw)).advance 4) := by
  simp only [bitModify, hload, hstore]

theorem bitModify_of_load_error {s : State} {e : Stop} {f : Bool → Bool} {bit3 : BitVec 3} {d : BitVec 16} {reg1 : Reg}
    (hload : s.load .byte (s.eaBased reg1 d) = .error e) : bitModify f bit3 d reg1 s = e.result := by
  simp only [bitModify, hload]

theorem bitModify_of_store_error {s t : State} {e : Stop} {f : Bool → Bool} {bit3 : BitVec 3} {d : BitVec 16} {reg1 : Reg}
    {v : Word} (hload : s.load .byte (s.eaBased reg1 d) = .ok (v, t))
    (hstore : t.store .byte (s.eaBased reg1 d) (withBit v bit3.toNat (f (v.getLsbD bit3.toNat))) = .error e) :
    bitModify f bit3 d reg1 s = e.result := by
  simp only [bitModify, hload, hstore]

theorem loadStops_tst1 (bit3 : BitVec 3) (d : BitVec 16) (reg1 : Reg) (s : State) :
    LoadStops (.tst1 bit3 d reg1) s .byte (s.eaBased reg1 d) := by
  rintro ⟨hp, hu⟩
  have hexec : exec (.tst1 bit3 d reg1) s = execTst1 bit3 d reg1 s := rfl
  rw [hexec, execTst1, State.load_unmapped hp hu]
  rfl

/-- The read stops outside the map; in ROM the read answers and the write is refused (R184, D11). -/
theorem modifyStops_of_bitModify {i : Instr} {s : State} {f : Bool → Bool} {bit3 : BitVec 3} {d : BitVec 16} {reg1 : Reg}
    (h : exec i s = bitModify f bit3 d reg1 s) : ModifyStops i s (s.eaBased reg1 d) := by
  refine ⟨?unmapped, ?rom⟩
  case unmapped =>
    rintro ⟨hp, hu⟩
    exact h.trans (bitModify_of_load_error (State.load_unmapped (w := .byte) hp hu))
  case rom =>
    rintro ⟨⟨hp, hr⟩, hrom⟩
    exact h.trans (bitModify_of_store_error (State.load_memory (w := .byte) hp hr)
      (State.store_touchesRom (w := .byte) ⟨⟨hp, hr⟩, hrom⟩))

/-- Settles O37: each instruction stops as its access does. -/
theorem accessesOutsideTheMapStop : Obligations.AccessesOutsideTheMapStop := fun s reg1 _ _ _ d bit3 =>
  ⟨loadStops_of_loadInto rfl, loadStops_of_loadInto rfl, loadStops_of_loadInto rfl, loadStops_of_loadInto rfl,
    loadStops_of_loadInto rfl, loadStops_of_loadInto rfl, loadStops_tst1 bit3 d reg1 s, storeStops_of_storeFrom rfl,
    storeStops_of_storeFrom rfl, storeStops_of_storeFrom rfl, storeStops_of_storeFrom rfl, storeStops_of_storeFrom rfl,
    storeStops_of_storeFrom rfl, modifyStops_of_bitModify (f := fun _ => true) rfl,
    modifyStops_of_bitModify (f := fun _ => false) rfl, modifyStops_of_bitModify (f := fun old => !old) rfl⟩

theorem modifiesPeripheralBit_of_bitModify {i : Instr} {s : State} {f : Bool → Bool} {bit3 : BitVec 3} {d : BitVec 16}
    {reg1 : Reg} (h : exec i s = bitModify f bit3 d reg1 s) : ModifiesPeripheralBit i s (s.eaBased reg1 d) bit3 f := by
  intro hp
  have hold : (Width.low .byte (Config.peripheralRead s.freeCount (s.eaBased reg1 d))).getLsbD bit3.toNat =
      (Config.peripheralRead s.freeCount (s.eaBased reg1 d)).getLsbD bit3.toNat := Width.getLsbD_low_byte _ bit3.isLt
  have hrun := h.trans
    (bitModify_of_accesses (State.load_peripheral (w := .byte) hp) (State.store_peripheral (w := .byte) hp))
  rw [Width.align_byte, hold] at hrun
  refine ⟨_, _, hrun, rfl, fun k hk => ?_, Psw.z_setZ _ s.psw, Psw.cy_setZ _ s.psw, Psw.ov_setZ _ s.psw, Psw.s_setZ _ s.psw,
    statusKept_setZ _ s.psw, rfl, kept_of_peripheralAccess rfl⟩
  rw [Width.getLsbD_low_byte _ hk, getLsbD_withBit _ _ (by omega), Width.getLsbD_low_byte _ hk]
  split
  · next hkb => rw [hkb]
  · rfl

/-- Settles O39: the three bit instructions are `bitModify` of their own function. -/
theorem bitInstructionsReachPeripherals : Obligations.BitInstructionsReachPeripherals := fun _ _ _ _ =>
  ⟨modifiesPeripheralBit_of_bitModify rfl, modifiesPeripheralBit_of_bitModify rfl, modifiesPeripheralBit_of_bitModify rfl⟩

/-- Settles O40: the byte read, from memory or from the peripheral area, decides Z. -/
theorem tst1TestsBit : Obligations.Tst1TestsBit := by
  rintro s bit3 d reg1 _ rfl
  refine ⟨?memory, ?peripheral⟩
  case memory =>
    rintro ⟨hp, hr⟩
    have hrun := execTst1_of_load (bit3 := bit3) (State.load_memory (w := .byte) hp hr)
    rw [Memory.getLsbD_readLE_byte _ _ bit3.isLt] at hrun
    obtain ⟨hframe, -⟩ := frameBut_of_flags (s := s) (a := s.pc + 4#24) rfl
    exact ⟨_, hrun, ⟨Psw.z_setZ _ s.psw, Psw.cy_setZ _ s.psw, Psw.ov_setZ _ s.psw, Psw.s_setZ _ s.psw,
      statusKept_setZ _ s.psw⟩, hframe, rfl⟩
  case peripheral =>
    intro hp
    have hrun := execTst1_of_load (bit3 := bit3) (State.load_peripheral (w := .byte) hp)
    rw [Width.getLsbD_low_byte _ bit3.isLt] at hrun
    exact ⟨_, hrun, rfl, Psw.z_setZ _ s.psw, Psw.cy_setZ _ s.psw, Psw.ov_setZ _ s.psw, Psw.s_setZ _ s.psw,
      statusKept_setZ _ s.psw, rfl, kept_of_peripheralAccess rfl⟩

/-! ### Which instructions touch data memory -/

theorem StoresAt.storingInstr {i : Instr} {s : State} {w : Width} {adr : Word} (h : StoresAt i s w adr) : StoringInstr i := by
  obtain ⟨_, _, rfl, -⟩ | ⟨_, _, rfl, -⟩ | ⟨_, _, rfl, -⟩ | ⟨_, _, _, rfl, -⟩ | ⟨_, _, _, rfl, -⟩ | ⟨_, _, _, rfl, -⟩ |
    ⟨_, _, _, rfl, -⟩ | ⟨_, _, _, rfl, -⟩ | ⟨_, _, _, rfl, -⟩ := h
  all_goals simp [StoringInstr]

theorem branchIf_events {cond : Cond} {d : BitVec 9} {s t : State} (h : branchIf cond d s = .next t) : t.events = s.events := by
  unfold branchIf at h
  split at h <;> cases h <;> rfl

theorem execDivh_events {reg1 reg2 : Reg} {s t : State} (h : execDivh reg1 reg2 s = .next t) : t.events = s.events := by
  unfold execDivh at h
  dsimp only at h
  split at h <;> cases h <;> rfl

theorem execLdsr_events {reg2 : Reg} {n : BitVec 5} {s t : State} (h : execLdsr reg2 n s = .next t) : t.events = s.events := by
  unfold execLdsr at h
  split at h
  · cases h
  · cases h
  · cases h
    exact State.writeSys_events s _ _

theorem execStsr_events {n : BitVec 5} {reg2 : Reg} {s t : State} (h : execStsr n reg2 s = .next t) : t.events = s.events := by
  unfold execStsr at h
  split at h
  · cases h
  · cases h
    rfl

/-- An instruction that completes has an access of R46 or leaves the record of peripheral accesses alone. -/
theorem exec_events_cases {i : Instr} {s t : State} (h : exec i s = .next t) :
    (StoringInstr i ∨ ReadingInstr i) ∨ t.events = s.events := by
  cases i with
  | sstB | sstH | sstW | stB | stH | stW | set1 | clr1 | not1 => exact .inl (.inl (by simp [StoringInstr]))
  | sldB | sldH | sldW | ldB | ldH | ldW | tst1 => exact .inl (.inr (by simp [ReadingInstr]))
  | bv | bl | be | bnh | bn | br | blt | ble | bnv | bnl | bne | bh | bp | bsa | bge | bgt => exact .inr (branchIf_events h)
  | divh => exact .inr (execDivh_events h)
  | ldsr => exact .inr (execLdsr_events h)
  | stsr => exact .inr (execStsr_events h)
  | reti =>
    cases h
    exact .inr (State.leave_events s)
  | _ =>
    -- The others write registers, the PSW, the pc or the HALT bit, always to a next state.
    cases h
    exact .inr rfl

/-- Settles O14: a completion that changed memory wrote by an access of its own, one that changed the record made one. -/
theorem dataMemoryUsers : Obligations.DataMemoryUsers := by
  refine fun i s t h => ⟨fun hmem => ?memory, fun hevents => ?events⟩
  case memory =>
    obtain ⟨-, hkept⟩ | ⟨w, adr, hstores, -⟩ := exec_store_cases h
    · exact absurd hkept hmem
    · exact hstores.storingInstr
  case events => exact (exec_events_cases h).resolve_right hevents

end Sys2Proof.Machine
end

section
/-!
PROOFS. The fields of a half-word: what each format puts where (R62 to R71), and how a half-word is put together again from the
fields that the decoder reads.
-/

namespace Sys2Proof

/-! ### Values of a field -/

theorem eq_ofNat_of_toNat_eq {w n : Nat} {b : BitVec w} (h : b.toNat = n) : b = BitVec.ofNat w n := by
  rw [← h, BitVec.ofNat_toNat, BitVec.setWidth_eq]

theorem regOf_eq_zero_iff (b : BitVec 5) : regOf b = 0 ↔ b = 0#5 := by
  revert b; decide

theorem regBits_eq_zero_iff (r : Reg) : regBits r = 0#5 ↔ r = 0 := by
  revert r; decide

/-! ### The op code, its row and its column in map (a) (R75) -/

theorem extract_row (h : Half) : h.extractLsb' 7 4 = (h.extractLsb' 5 6).extractLsb' 2 4 := by grind

theorem extract_col (h : Half) : h.extractLsb' 5 2 = (h.extractLsb' 5 6).extractLsb' 0 2 := by grind

theorem op_eq_of_row_col {h : Half} {op : BitVec 6}
    (hop : op.toNat = 4 * (h.extractLsb' 7 4).toNat + (h.extractLsb' 5 2).toNat) : h.extractLsb' 5 6 = op := by
  apply BitVec.eq_of_toNat_eq
  rw [hop, BitVec.extractLsb'_toNat, BitVec.extractLsb'_toNat, BitVec.extractLsb'_toNat]
  simp only [Nat.shiftRight_eq_div_pow]
  omega

/-- The first two columns of the last row are JR and JARL: their displacement reaches into the op code (R66). -/
theorem jumpOp_of_row_col {h : Half} (hrow : (h.extractLsb' 7 4).toNat = 15) (hcol : (h.extractLsb' 5 2).toNat < 2) :
    h.extractLsb' 6 5 = 0b11110#5 := by
  apply BitVec.eq_of_toNat_eq
  rw [BitVec.extractLsb'_toNat, Nat.shiftRight_eq_div_pow] at *
  simp only [BitVec.toNat_ofNat]
  omega

theorem isLong_of_op {h : Half} {op : BitVec 6} (hop : h.extractLsb' 5 6 = op) :
    isLong h = (op.getLsbD 5 && op.getLsbD 4) := by
  rw [← hop]
  grind [isLong]

theorem isLong_of_jumpOp {h : Half} (hop : h.extractLsb' 6 5 = 0b11110#5) : isLong h = true := by
  have hbits : isLong h = ((h.extractLsb' 6 5).getLsbD 4 && (h.extractLsb' 6 5).getLsbD 3) := by grind [isLong]
  rw [hbits, hop]
  rfl

/-- The 32-bit codes are those of rows 1100 to 1111 (R75). -/
theorem isLong_iff_row (h : Half) : isLong h = true ↔ 12 ≤ (h.extractLsb' 7 4).toNat := by
  have hbits : isLong h = ((h.extractLsb' 7 4).getLsbD 3 && (h.extractLsb' 7 4).getLsbD 2) := by grind [isLong]
  rw [hbits]
  generalize h.extractLsb' 7 4 = row
  revert row; decide

theorem isLong_join (b0 b1 : Byte) : isLong (b1 ++ b0) = (b1.getLsbD 2 && b1.getLsbD 1) := by grind [isLong]

/-! ### Formats I, II, VI, VII and the first half-word of VIII, IX and X -/

section PackI
variable (hi : BitVec 5) (op : BitVec 6) (lo : BitVec 5)

theorem isLong_packI : isLong (packI hi op lo) = (op.getLsbD 5 && op.getLsbD 4) := isLong_of_op (packI_op hi op lo)

theorem packI_row : (packI hi op lo).extractLsb' 7 4 = op.extractLsb' 2 4 := by rw [extract_row, packI_op]

theorem packI_col : (packI hi op lo).extractLsb' 5 2 = op.extractLsb' 0 2 := by rw [extract_col, packI_op]

theorem packI_extract_hi {k n : Nat} (hk : 11 ≤ k) : (packI hi op lo).extractLsb' k n = hi.extractLsb' (k - 11) n := by
  grind [packI]

theorem packI_extract_lo {k n : Nat} (hk : k + n ≤ 5) : (packI hi op lo).extractLsb' k n = lo.extractLsb' k n := by
  grind [packI]

theorem packI_getElem_lo {k : Nat} (hk : k < 5) : (packI hi op lo)[k] = lo[k] := by grind [packI]

theorem packI_getElem_top : (packI hi op lo)[15] = hi[4] := by grind [packI]

end PackI

theorem packI_of_op {h : Half} {op : BitVec 6} (hop : h.extractLsb' 5 6 = op) :
    packI (h.extractLsb' 11 5) op (h.extractLsb' 0 5) = h := by
  rw [← hop, packI_fields]

theorem packI_of_row_col {h : Half} {op : BitVec 6}
    (hop : op.toNat = 4 * (h.extractLsb' 7 4).toNat + (h.extractLsb' 5 2).toNat) :
    packI (h.extractLsb' 11 5) op (h.extractLsb' 0 5) = h := packI_of_op (op_eq_of_row_col hop)

/-! ### Displacements (R72) -/

theorem evenDisp_join {n : Nat} {d : BitVec (n + 1)} (hd : evenDisp d = true) : d.extractLsb' 1 n ++ 0#1 = d := by
  grind [evenDisp]

theorem wordDisp_join {d : BitVec 8} (hd : wordDisp d = true) : d.extractLsb' 2 6 ++ 0#2 = d := by grind [wordDisp]

theorem evenDisp_append {n : Nat} (d : BitVec n) : evenDisp (d ++ 0#1) = true := by grind [evenDisp]

theorem wordDisp_append {n : Nat} (d : BitVec n) : wordDisp (d ++ 0#2) = true := by grind [wordDisp]

/-- The lowest bit of a half-word is its sub-op code or the bit its displacement drops (R66, R68). -/
theorem join_lowest_bit (h : Half) {sub : BitVec 1} (hb : h.getLsbD 0 = sub.getLsbD 0) : h.extractLsb' 1 15 ++ sub = h := by
  grind

/-! ### Format III -/

section PackIII
variable (d : BitVec 9) (cond : Cond)

theorem packIII_row : (packIII d cond).extractLsb' 7 4 = 0b1011#4 := by grind [packIII]

theorem isLong_packIII : isLong (packIII d cond) = false := by
  rw [← Bool.not_eq_true, isLong_iff_row, packIII_row]
  decide

theorem packIII_code : (packIII d cond).extractLsb' 0 4 = cond.code := by grind [packIII]

theorem packIII_disp (hd : evenDisp d = true) :
    (packIII d cond).extractLsb' 11 5 ++ (packIII d cond).extractLsb' 4 3 ++ 0#1 = d := by
  have hhigh : (packIII d cond).extractLsb' 11 5 = d.extractLsb' 4 5 := by grind [packIII]
  have hlow : (packIII d cond).extractLsb' 4 3 = d.extractLsb' 1 3 := by grind [packIII]
  rw [hhigh, hlow]
  grind [evenDisp]

end PackIII

theorem packIII_of_row {h : Half} (hrow : (h.extractLsb' 7 4).toNat = 11) :
    packIII (h.extractLsb' 11 5 ++ h.extractLsb' 4 3 ++ 0#1) (Cond.ofCode (h.extractLsb' 0 4)) = h := by
  have hhigh : (h.extractLsb' 11 5 ++ h.extractLsb' 4 3 ++ 0#1).extractLsb' 4 5 = h.extractLsb' 11 5 := by grind
  have hlow : (h.extractLsb' 11 5 ++ h.extractLsb' 4 3 ++ 0#1).extractLsb' 1 3 = h.extractLsb' 4 3 := by grind
  rw [packIII, hhigh, hlow, code_ofCode, ← eq_ofNat_of_toNat_eq hrow]
  grind

/-! ### Format IV -/

section PackIV
variable (reg2 : Reg) (op : BitVec 4) (d : BitVec 7)

theorem packIV_row : (packIV reg2 op d).extractLsb' 7 4 = op := by grind [packIV]

theorem isLong_packIV : isLong (packIV reg2 op d) = (op.getLsbD 3 && op.getLsbD 2) := by grind [packIV, isLong]

theorem packIV_reg2 : (packIV reg2 op d).extractLsb' 11 5 = regBits reg2 := by grind [packIV]

theorem packIV_disp : (packIV reg2 op d).extractLsb' 0 7 = d := by grind [packIV]

theorem packIV_wordDisp (d : BitVec 8) (sub : BitVec 1) :
    (packIV reg2 op (wordField d sub)).extractLsb' 1 6 = d.extractLsb' 2 6 := by grind [packIV, wordField]

theorem packIV_wordSub (d : BitVec 8) (sub : BitVec 1) : (packIV reg2 op (wordField d sub))[0] = sub[0] := by
  grind [packIV, wordField]

end PackIV

theorem packIV_of_row {h : Half} {n : Nat} (hrow : (h.extractLsb' 7 4).toNat = n) :
    packIV (regOf (h.extractLsb' 11 5)) (BitVec.ofNat 4 n) (h.extractLsb' 0 7) = h := by
  rw [packIV, regBits_regOf, ← eq_ofNat_of_toNat_eq hrow]
  grind

theorem extract_disp8 (d : BitVec 7) : (d ++ 0#1).extractLsb' 1 7 = d := by grind

theorem wordField_of_bit {h : Half} {sub : BitVec 1} (hb : h.getLsbD 0 = sub.getLsbD 0) :
    wordField (h.extractLsb' 1 6 ++ 0#2) sub = h.extractLsb' 0 7 := by
  have hdisp : wordField (h.extractLsb' 1 6 ++ 0#2) sub = h.extractLsb' 1 6 ++ sub := by grind [wordField]
  rw [hdisp]
  grind

/-! ### Format V -/

section PackV
variable (hi op : BitVec 5) (d : BitVec 6)

theorem packV_op : (hi ++ op ++ d).extractLsb' 6 5 = op := by grind

theorem packV_hi : (hi ++ op ++ d).extractLsb' 11 5 = hi := by grind

theorem packV_disp : (hi ++ op ++ d).extractLsb' 0 6 = d := by grind

theorem packV_lowDisp (e : BitVec 15) : (e ++ 0#1).extractLsb' 1 15 = e := by grind

theorem packV_lowest (e : BitVec 15) : (e ++ 0#1).getLsbD 0 = false := by grind

end PackV

theorem disp22_join {d : BitVec 22} (hd : evenDisp d = true) : d.extractLsb' 16 6 ++ d.extractLsb' 1 15 ++ 0#1 = d := by
  grind [evenDisp]

theorem packV_of_jumpOp {h0 h1 : Half} (hop : h0.extractLsb' 6 5 = 0b11110#5) (h16 : h1.getLsbD 0 = false) :
    packV (h0.extractLsb' 11 5) (h0.extractLsb' 0 6 ++ h1.extractLsb' 1 15 ++ 0#1) = [h0, h1] := by
  have hhigh : (h0.extractLsb' 0 6 ++ h1.extractLsb' 1 15 ++ 0#1).extractLsb' 16 6 = h0.extractLsb' 0 6 := by grind
  have hlow : (h0.extractLsb' 0 6 ++ h1.extractLsb' 1 15 ++ 0#1).extractLsb' 1 15 = h1.extractLsb' 1 15 := by grind
  have hjoin : h0.extractLsb' 11 5 ++ h0.extractLsb' 6 5 ++ h0.extractLsb' 0 6 = h0 := by grind
  have hlowest : h1.getLsbD 0 = (0#1).getLsbD 0 := h16
  rw [packV, hhigh, hlow, join_lowest_bit h1 hlowest, ← hop, hjoin]

/-! ### Format VII -/

theorem dispField_disp (d : BitVec 16) (sub : BitVec 1) : (dispField d sub).extractLsb' 1 15 = d.extractLsb' 1 15 := by
  grind [dispField]

theorem dispField_sub (d : BitVec 16) (sub : BitVec 1) : (dispField d sub)[0] = sub[0] := by grind [dispField]

theorem dispField_of_bit {h : Half} {sub : BitVec 1} (hb : h.getLsbD 0 = sub.getLsbD 0) :
    dispField (h.extractLsb' 1 15 ++ 0#1) sub = h := by
  have hdisp : dispField (h.extractLsb' 1 15 ++ 0#1) sub = h.extractLsb' 1 15 ++ sub := by grind [dispField]
  rw [hdisp, join_lowest_bit h hb]

/-! ### Format VIII -/

theorem bitField_sub (sub : BitVec 2) (bit3 : BitVec 3) : (sub ++ bit3).extractLsb' 3 2 = sub := by grind

theorem bitField_bit (sub : BitVec 2) (bit3 : BitVec 3) : (sub ++ bit3).extractLsb' 0 3 = bit3 := by grind

theorem packVIII_of_op {h0 : Half} (h1 : Half) {n : Nat} (hop : h0.extractLsb' 5 6 = 0b111110#6)
    (hsub : (h0.extractLsb' 14 2).toNat = n) :
    packVIII (BitVec.ofNat 2 n) (h0.extractLsb' 11 3) (regOf (h0.extractLsb' 0 5)) h1 = [h0, h1] := by
  have hjoin : h0.extractLsb' 14 2 ++ h0.extractLsb' 11 3 ++ h0.extractLsb' 5 6 ++ h0.extractLsb' 0 5 = h0 := by grind
  rw [packVIII, regBits_regOf, ← eq_ofNat_of_toNat_eq hsub, ← hop, hjoin]

/-! ### Formats IX and X, and the illegal op codes -/

theorem condField_code (c : BitVec 4) : (0#1 ++ c).extractLsb' 0 4 = c := by grind

theorem condField_bit (c : BitVec 4) : (0#1 ++ c)[4] = false := by grind

theorem condField_of_bit {h : Half} (hb : h.getLsbD 4 = false) : 0#1 ++ h.extractLsb' 0 4 = h.extractLsb' 0 5 := by grind

/-- Bit 15 is all that DI and EI leave of the high field (R71, R81). -/
theorem idField_eq {h : Half} (h13 : h.extractLsb' 13 2 = 0#2) (h11 : h.extractLsb' 11 2 = 0#2) :
    h.extractLsb' 11 5 = if h.getLsbD 15 = true then 0b10000#5 else 0#5 := by
  have hjoin : h.extractLsb' 11 5 = BitVec.ofBool (h.getLsbD 15) ++ h.extractLsb' 13 2 ++ h.extractLsb' 11 2 := by grind
  rw [hjoin, h13, h11]
  cases h.getLsbD 15 <;> rfl

theorem packIX_of_op {h0 h1 : Half} {sub : BitVec 6} (hop : h0.extractLsb' 5 6 = 0b111111#6)
    (hsub : h1.extractLsb' 5 6 = sub) (hhi : h1.extractLsb' 11 5 = 0#5) (hlo : h1.extractLsb' 0 5 = 0#5) :
    packIX (h0.extractLsb' 11 5) (h0.extractLsb' 0 5) sub = [h0, h1] := by
  have hsecond : 0#5 ++ sub ++ 0#5 = h1 := by
    have hpack := packI_of_op hsub
    rwa [hhi, hlo] at hpack
  rw [packIX, packI_of_op hop, hsecond]

section IllegalFields
variable (c : BitVec 5) (subOp : BitVec 4) (d : BitVec 7)

theorem illegal_high : (c ++ subOp ++ d).extractLsb' 11 5 = c := by grind

theorem illegal_subOp : (c ++ subOp ++ d).extractLsb' 7 4 = subOp := by grind

theorem illegal_low : (c ++ subOp ++ d).extractLsb' 0 7 = d := by grind

end IllegalFields

theorem encode_ilgop_fields {h0 : Half} (h1 : Half) (hop : h0.extractLsb' 5 6 = 0b111111#6) :
    encode (.ilgop (h0.extractLsb' 11 5) (h0.extractLsb' 0 5) (h1.extractLsb' 11 5) (h1.extractLsb' 7 4)
      (h1.extractLsb' 0 7)) = [h0, h1] := by
  have hjoin : h1.extractLsb' 11 5 ++ h1.extractLsb' 7 4 ++ h1.extractLsb' 0 7 = h1 := by grind
  rw [encode, packI_of_op hop, hjoin]

/-! ### Instructions -/

theorem wf_movReg (reg1 reg2 : Reg) : (Instr.movReg reg1 reg2).wf = true ↔ ¬ (reg1 = 0 ∧ reg2 = 0) := by
  simp [Instr.wf, imp_iff_not_or]

theorem wf_branch (cond : Cond) (d : BitVec 9) : (cond.branch d).wf = evenDisp d := by cases cond <;> rfl

theorem encode_branch (cond : Cond) (d : BitVec 9) : encode (cond.branch d) = [packIII d cond] := by cases cond <;> rfl

/-! ### Bytes -/

theorem encodeBytes_of_short {i : Instr} {h0 : Half} (he : encode i = [h0]) : encodeBytes i = halfBytes h0 := by
  simp [encodeBytes, he]

theorem encodeBytes_of_long {i : Instr} {h0 h1 : Half} (he : encode i = [h0, h1]) :
    encodeBytes i = halfBytes h0 ++ halfBytes h1 := by
  simp [encodeBytes, he]

theorem halfBytes_append_eq_cons {h : Half} {b0 b1 : Byte} {l tail : List Byte}
    (he : b0 :: b1 :: tail = halfBytes h ++ l) : h = b1 ++ b0 ∧ tail = l := by
  simp only [halfBytes, List.cons_append, List.nil_append, List.cons.injEq] at he
  obtain ⟨rfl, rfl, rfl⟩ := he
  exact ⟨(join_bytes h).symm, rfl⟩

theorem halfBytes_injective {h k : Half} (hb : halfBytes h = halfBytes k) : h = k := by
  simp only [halfBytes, List.cons.injEq] at hb
  obtain ⟨hlow, hhigh, -⟩ := hb
  rw [← join_bytes h, ← join_bytes k, hlow, hhigh]

end Sys2Proof
end

section
/-!
PROOFS. Decoding what the encoder wrote: each format's op code leads the decoder to its row and column of the maps (R75 to R79),
where the fields are read back.
-/

namespace Sys2Proof

/-! ### The last row of map (a) -/

/-- Op codes 11110x are JR and JARL, with bit 16 reserved (R66, R76 c, R81). -/
theorem decodeLong_jump {h0 : Half} (h1 : Half) (hop : h0.extractLsb' 6 5 = 0b11110#5) :
    decodeLong h0 h1 =
      if h1.getLsbD 0 = true then .error .reservedField
      else if h0.extractLsb' 11 5 = 0#5 then .ok (.jr (h0.extractLsb' 0 6 ++ h1.extractLsb' 1 15 ++ 0#1))
      else .ok (.jarl (h0.extractLsb' 0 6 ++ h1.extractLsb' 1 15 ++ 0#1) (regOf (h0.extractLsb' 11 5))) := by
  have hrow : h0.extractLsb' 7 4 = (h0.extractLsb' 6 5).extractLsb' 1 4 := by grind
  have hcol : h0.extractLsb' 5 2 = (h0.extractLsb' 6 5).extractLsb' 0 1 ++ h0.extractLsb' 5 1 := by grind
  have hbit : ∀ b : BitVec 1, b = 0#1 ∨ b = 1#1 := by decide
  rw [hop] at hrow hcol
  obtain hb | hb := hbit (h0.extractLsb' 5 1)
  all_goals simp [decodeLong, hrow, hcol, hb, regOf_eq_zero_iff, -BitVec.extractLsb'_toNat, -BitVec.toNat_append]

/-- Op code 111111 is an illegal op code or one of the extended instructions (R77, R79). -/
theorem decodeLong_extension {h0 : Half} (h1 : Half) (hop : h0.extractLsb' 5 6 = 0b111111#6) :
    decodeLong h0 h1 =
      if 3 ≤ (h1.extractLsb' 7 4).toNat then
        .ok (.ilgop (h0.extractLsb' 11 5) (h0.extractLsb' 0 5) (h1.extractLsb' 11 5) (h1.extractLsb' 7 4)
          (h1.extractLsb' 0 7))
      else decodeExtension h0 h1 := by
  have hrow := extract_row h0
  have hcol := extract_col h0
  rw [hop] at hrow hcol
  simp only [decodeLong, hrow, hcol]
  rfl

/-! ### From the half-words to the bytes -/

theorem decode_encodeBytes_short {i : Instr} {h0 : Half} (he : encode i = [h0]) (hl : isLong h0 = false)
    (hd : decodeShort h0 = .ok i) (rest : List Byte) : decode (encodeBytes i ++ rest) = .ok (i, rest) := by
  rw [encodeBytes_of_short he, decode_short rest hl, hd]
  rfl

theorem decode_encodeBytes_long {i : Instr} {h0 h1 : Half} (he : encode i = [h0, h1]) (hl : isLong h0 = true)
    (hd : decodeLong h0 h1 = .ok i) (rest : List Byte) : decode (encodeBytes i ++ rest) = .ok (i, rest) := by
  rw [encodeBytes_of_long he, List.append_assoc, decode_long h1 rest hl, hd]
  rfl

theorem decode_encodeBytes_packVIII {i : Instr} {sub : BitVec 2} {bit3 : BitVec 3} {reg1 : Reg} {d : BitVec 16}
    (he : encode i = packVIII sub bit3 reg1 d)
    (hd : decodeLong (packI (sub ++ bit3) 0b111110#6 (regBits reg1)) d = .ok i) (rest : List Byte) :
    decode (encodeBytes i ++ rest) = .ok (i, rest) :=
  decode_encodeBytes_long he (isLong_packI (sub ++ bit3) _ _) hd rest

theorem decode_encodeBytes_packIX {i : Instr} {hi lo : BitVec 5} {sub : BitVec 6} (he : encode i = packIX hi lo sub)
    (hsub : (sub.extractLsb' 2 4).toNat < 3)
    (hd : decodeExtension (packI hi 0b111111#6 lo) (packI 0#5 sub 0#5) = .ok i) (rest : List Byte) :
    decode (encodeBytes i ++ rest) = .ok (i, rest) := by
  refine decode_encodeBytes_long (h1 := packI 0#5 sub 0#5) he (isLong_packI hi _ lo) ?_ rest
  rw [decodeLong_extension _ (packI_op hi _ lo), packI_row, if_neg (Nat.not_le.mpr hsub), hd]

/-! ### The round trip -/

/-- Settles O1, format by format: the encoding's fields are those the decoder reads at the format's row and column. -/
theorem decodeOfEncode : Obligations.DecodeOfEncode := by
  intro i rest hwf
  cases i
  case movReg reg1 reg2 =>
    have hne := (wf_movReg reg1 reg2).mp hwf
    refine decode_encodeBytes_short rfl (isLong_packI _ _ _) ?_ rest
    simp [decodeShort, decodeFormatI, packI_row, packI_col, packI_hi, packI_lo, hne]
  case nop | notReg | divh | jmp | satsubr | satsub | sataddReg | mulhReg | orReg | xorReg | andReg | tst | subr | sub |
      addReg | cmpReg =>
    refine decode_encodeBytes_short rfl (isLong_packI _ _ _) ?_ rest
    simp [decodeShort, decodeFormatI, packI_row, packI_col, packI_hi, packI_lo, regOf_eq_zero_iff]
  case movImm | sataddImm | addImm | cmpImm | shrImm | sarImm | shlImm | mulhImm =>
    refine decode_encodeBytes_short rfl (isLong_packI _ _ _) ?_ rest
    simp [decodeShort, decodeFormatII, packI_row, packI_col, packI_hi, packI_lo]
  case bv | bl | be | bnh | bn | br | blt | ble | bnv | bnl | bne | bh | bp | bsa | bge | bgt =>
    refine decode_encodeBytes_short rfl (isLong_packIII _ _) ?_ rest
    simp only [decodeShort, packIII_row, packIII_code, ofCode_code, packIII_disp _ _ hwf]
    rfl
  case sldB | sstB =>
    refine decode_encodeBytes_short rfl (isLong_packIV _ _ _) ?_ rest
    simp [decodeShort, packIV_row, packIV_disp, packIV_reg2]
  case sldH | sstH =>
    refine decode_encodeBytes_short rfl (isLong_packIV _ _ _) ?_ rest
    simp [decodeShort, packIV_row, packIV_disp, packIV_reg2, evenDisp_join (n := 7) hwf]
  case sldW | sstW =>
    refine decode_encodeBytes_short rfl (isLong_packIV _ _ _) ?_ rest
    simp [decodeShort, packIV_row, packIV_wordDisp, packIV_wordSub, packIV_reg2, wordDisp_join hwf]
  case jr d =>
    refine decode_encodeBytes_long rfl (isLong_of_jumpOp (packV_op _ _ _)) ?_ rest
    rw [decodeLong_jump _ (packV_op _ _ _), packV_lowest, packV_hi, packV_disp, packV_lowDisp, disp22_join hwf]
    rfl
  case jarl d reg2 =>
    obtain ⟨hd, hne⟩ : evenDisp d = true ∧ reg2 ≠ 0 := by simpa [Instr.wf] using hwf
    refine decode_encodeBytes_long rfl (isLong_of_jumpOp (packV_op _ _ _)) ?_ rest
    rw [decodeLong_jump _ (packV_op _ _ _), packV_lowest, packV_hi, packV_disp, packV_lowDisp, disp22_join hd]
    simp [regBits_eq_zero_iff, hne]
  case addi | movea | movhi | satsubi | ori | xori | andi | mulhi | ldB | stB =>
    refine decode_encodeBytes_long rfl (isLong_packI _ _ _) ?_ rest
    simp [decodeLong, packI_row, packI_col, packI_hi, packI_lo]
  case ldH | ldW | stH | stW =>
    refine decode_encodeBytes_long rfl (isLong_packI _ _ _) ?_ rest
    simp [decodeLong, packI_row, packI_col, packI_hi, packI_lo, dispField_disp, dispField_sub, evenDisp_join (n := 15) hwf]
  case set1 | not1 | clr1 | tst1 =>
    refine decode_encodeBytes_packVIII rfl ?_ rest
    simp [decodeLong, packI_row, packI_col, packI_extract_hi, packI_lo, bitField_sub, bitField_bit]
  case setf =>
    refine decode_encodeBytes_packIX rfl (by decide) ?_ rest
    simp [decodeExtension, packI_op, packI_hi, packI_extract_lo, packI_getElem_lo, condField_code, condField_bit]
  case ldsr | stsr | shrReg | sarReg | shlReg | trap | halt | reti =>
    refine decode_encodeBytes_packIX rfl (by decide) ?_ rest
    simp [decodeExtension, packI_op, packI_hi, packI_lo]
  case di | ei =>
    refine decode_encodeBytes_packIX rfl (by decide) ?_ rest
    simp [decodeExtension, packI_op, packI_lo, packI_extract_hi, packI_getElem_top]
  case ilgop a b c subOp d =>
    have hsub : 3 ≤ subOp.toNat := of_decide_eq_true hwf
    refine decode_encodeBytes_long rfl (isLong_packI _ _ _) ?_ rest
    rw [decodeLong_extension _ (packI_op _ _ _), packI_hi, packI_lo, illegal_high, illegal_subOp, illegal_low, if_pos hsub]

end Sys2Proof
end

section
/-!
PROOFS. Encoding what the decoder read: in each entry of the maps the fields read are all the bits of the word, so the encoder puts
the same half-words together again.
-/

namespace Sys2Proof

/-! ### 16-bit codes -/

theorem decodeFormatI_sound {h0 : Half} {i : Instr} (hrow : (h0.extractLsb' 7 4).toNat < 4)
    (h : decodeFormatI h0 = .ok i) : i.wf = true ∧ encode i = [h0] := by
  have hcol := (h0.extractLsb' 5 2).isLt
  simp only [decodeFormatI, regOf_eq_zero_iff] at h
  split at h
  case h_1 hrow0 hcol0 =>
    have hpack := packI_of_row_col (h := h0) (op := 0b000000#6) (by rw [hrow0, hcol0]; rfl)
    split at h
    · next hz =>
      cases h
      rw [hz.1, hz.2] at hpack
      exact ⟨rfl, by rw [encode, hpack]⟩
    · next hne =>
      cases h
      refine ⟨(wf_movReg _ _).mpr ?_, by rw [encode, regBits_regOf, regBits_regOf, hpack]⟩
      simpa only [regOf_eq_zero_iff] using hne
  case h_4 =>
    split at h
    · next hz =>
      cases h
      refine ⟨rfl, ?_⟩
      rw [encode, regBits_regOf, ← hz, packI_of_row_col]
      simp only [imp_false, BitVec.toNat_ofNat] at *
      omega
    · cases h
  all_goals
    cases h
    refine ⟨rfl, ?_⟩
    simp only [encode, regBits_regOf]
    rw [packI_of_row_col]
    simp_all only [imp_false, implies_true, BitVec.toNat_ofNat]
  all_goals omega

theorem decodeFormatII_sound {h0 : Half} {i : Instr}
    (hrow : (h0.extractLsb' 7 4).toNat = 4 ∨ (h0.extractLsb' 7 4).toNat = 5) (h : decodeFormatII h0 = .ok i) :
    i.wf = true ∧ encode i = [h0] := by
  have hcol := (h0.extractLsb' 5 2).isLt
  unfold decodeFormatII at h
  split at h
  all_goals
    cases h
    refine ⟨rfl, ?_⟩
    simp only [encode, regBits_regOf]
    rw [packI_of_row_col]
    simp only [imp_false, BitVec.toNat_ofNat] at *
    omega

theorem decodeShort_sound {h0 : Half} {i : Instr} (h : decodeShort h0 = .ok i) : i.wf = true ∧ encode i = [h0] := by
  unfold decodeShort at h
  split at h
  case h_1 | h_2 | h_3 | h_4 => exact decodeFormatI_sound (by omega) h
  case h_5 | h_6 => exact decodeFormatII_sound (by omega) h
  case h_7 hrow | h_8 hrow =>
    cases h
    exact ⟨rfl, by rw [encode, packIV_of_row hrow]⟩
  case h_9 hrow | h_10 hrow =>
    cases h
    exact ⟨evenDisp_append _, by rw [encode, extract_disp8, packIV_of_row hrow]⟩
  case h_11 hrow =>
    split at h
    all_goals
      next hb =>
      cases h
      exact ⟨wordDisp_append _, by rw [encode, wordField_of_bit (by simpa using hb), packIV_of_row hrow]⟩
  case h_12 hrow =>
    cases h
    exact ⟨(wf_branch _ _).trans (evenDisp_append _), by rw [encode_branch, packIII_of_row hrow]⟩
  case h_13 => cases h

/-! ### 32-bit codes -/

theorem decodeExtension_sound {h0 h1 : Half} {i : Instr} (hop : h0.extractLsb' 5 6 = 0b111111#6)
    (h : decodeExtension h0 h1 = .ok i) : i.wf = true ∧ encode i = [h0, h1] := by
  have hpack {n : Nat} (hn : (h1.extractLsb' 5 6).toNat = n) := packIX_of_op hop (eq_ofNat_of_toNat_eq hn)
  simp only [decodeExtension, Bool.and_eq_true, beq_iff_eq] at h
  split at h
  case h_1 hsub =>
    split at h
    · next hrfu =>
      cases h
      obtain ⟨⟨hhi, hlo⟩, hbit⟩ := hrfu
      exact ⟨rfl, by rw [encode, code_ofCode, regBits_regOf, condField_of_bit (by simpa using hbit), hpack hsub hhi hlo]⟩
    · cases h
  case h_2 hsub | h_3 hsub | h_4 hsub | h_5 hsub | h_6 hsub =>
    split at h
    · next hrfu =>
      cases h
      obtain ⟨hhi, hlo⟩ := hrfu
      refine ⟨rfl, ?_⟩
      simp only [encode, regBits_regOf]
      rw [hpack hsub hhi hlo]
    · cases h
  case h_7 hsub =>
    split at h
    · next hrfu =>
      cases h
      obtain ⟨⟨hhi, hlo⟩, hz⟩ := hrfu
      exact ⟨rfl, by rw [encode, ← hz, hpack hsub hhi hlo]⟩
    · cases h
  case h_8 hsub | h_9 hsub =>
    split at h
    · next hrfu =>
      cases h
      obtain ⟨⟨⟨hhi, hlo⟩, hzhi⟩, hzlo⟩ := hrfu
      have hwords := hpack hsub hhi hlo
      rw [hzhi, hzlo] at hwords
      exact ⟨rfl, hwords⟩
    · cases h
  case h_10 hsub =>
    split at h
    · next hdefined =>
      split at h
      · next hrfu =>
        cases h
        obtain ⟨⟨⟨hhi, hlo⟩, hz11⟩, hzlo⟩ := hrfu
        have hwords := hpack hsub hhi hlo
        rw [hzlo, idField_eq hdefined hz11] at hwords
        split
        · next hb => exact ⟨rfl, by rwa [if_pos hb] at hwords⟩
        · next hb => exact ⟨rfl, by rwa [if_neg hb] at hwords⟩
      · cases h
    · cases h
  case h_11 => cases h

theorem decodeLong_sound {h0 h1 : Half} {i : Instr} (h : decodeLong h0 h1 = .ok i) :
    i.wf = true ∧ encode i = [h0, h1] := by
  have hcol := (h0.extractLsb' 5 2).isLt
  simp only [decodeLong, regOf_eq_zero_iff] at h
  split at h
  case h_10 | h_12 =>
    split at h
    all_goals
      next hb =>
      cases h
      refine ⟨evenDisp_append _, ?_⟩
      simp only [encode, regBits_regOf]
      rw [dispField_of_bit (by simpa using hb), packI_of_row_col]
      simp only [imp_false, BitVec.toNat_ofNat] at *
      omega
  case h_13 hrow hcol2 =>
    have hop := op_eq_of_row_col (h := h0) (op := 0b111110#6) (by rw [hrow, hcol2]; rfl)
    have hlt := (h0.extractLsb' 14 2).isLt
    split at h
    case h_1 hsub | h_2 hsub | h_3 hsub =>
      cases h
      exact ⟨rfl, packVIII_of_op h1 hop hsub⟩
    case h_4 =>
      cases h
      exact ⟨rfl, packVIII_of_op h1 (n := 3) hop (by simp only [imp_false] at *; omega)⟩
  case h_14 hrow hcol3 =>
    have hop := op_eq_of_row_col (h := h0) (op := 0b111111#6) (by rw [hrow, hcol3]; rfl)
    split at h
    · next hsub =>
      cases h
      exact ⟨decide_eq_true hsub, encode_ilgop_fields h1 hop⟩
    · exact decodeExtension_sound hop h
  case h_15 hrow hcol2 hcol3 =>
    have hop := jumpOp_of_row_col hrow (by simp only [imp_false] at *; omega)
    split at h
    · cases h
    · next h16 =>
      have hpack := packV_of_jumpOp (h1 := h1) hop (by simpa using h16)
      split at h
      · next hz =>
        cases h
        exact ⟨evenDisp_append _, by rw [encode, ← hz, hpack]⟩
      · next hne =>
        cases h
        refine ⟨?_, by rw [encode, regBits_regOf, hpack]⟩
        simpa [Instr.wf, evenDisp_append, regOf_eq_zero_iff] using hne
  case h_16 => cases h
  all_goals
    cases h
    refine ⟨rfl, ?_⟩
    simp only [encode, regBits_regOf]
    rw [packI_of_row_col]
    simp only [imp_false, BitVec.toNat_ofNat] at *
    omega

/-! ### Bytes -/

theorem map_pair_eq_ok {x : Except DecodeReject Instr} {l rest : List Byte} {i : Instr}
    (h : (x.map fun j => (j, l)) = .ok (i, rest)) : x = .ok i ∧ l = rest := by
  cases x with
  | error e => cases h
  | ok j => cases h; exact ⟨rfl, rfl⟩

/-- All that decoding can take up: one half-word of a 16-bit code, or two of a 32-bit code (R60, R61, R83). -/
theorem decode_cases {bytes rest : List Byte} {i : Instr} (h : decode bytes = .ok (i, rest)) :
    (∃ h0, isLong h0 = false ∧ decodeShort h0 = .ok i ∧ bytes = halfBytes h0 ++ rest) ∨
      ∃ h0 h1, isLong h0 = true ∧ decodeLong h0 h1 = .ok i ∧ bytes = halfBytes h0 ++ (halfBytes h1 ++ rest) := by
  unfold decode at h
  split at h
  · next b0 b1 tail =>
    split at h
    · next hl =>
      split at h
      · next b2 b3 tail' =>
        obtain ⟨hd, rfl⟩ := map_pair_eq_ok h
        exact .inr ⟨b1 ++ b0, b3 ++ b2, hl, hd, by simp⟩
      · cases h
    · next hl =>
      obtain ⟨hd, rfl⟩ := map_pair_eq_ok h
      exact .inl ⟨b1 ++ b0, by simpa using hl, hd, by simp⟩
  · cases h

/-- Settles O2: what was read is one or two half-words, and each decoder's answer encodes to them. -/
theorem encodeOfDecode : Obligations.EncodeOfDecode := by
  intro bytes rest i h
  obtain ⟨h0, -, hd, rfl⟩ | ⟨h0, h1, -, hd, rfl⟩ := decode_cases h
  · obtain ⟨hwf, he⟩ := decodeShort_sound hd
    exact ⟨hwf, by rw [encodeBytes_of_short he]⟩
  · obtain ⟨hwf, he⟩ := decodeLong_sound hd
    exact ⟨hwf, by rw [encodeBytes_of_long he, List.append_assoc]⟩

theorem length_of_decodeShort {h0 : Half} {i : Instr} (hd : decodeShort h0 = .ok i) : i.length = 2 := by
  obtain ⟨-, he⟩ := decodeShort_sound hd
  rw [← Machine.encodeBytes_length, encodeBytes_of_short he]
  rfl

theorem length_of_decodeLong {h0 h1 : Half} {i : Instr} (hd : decodeLong h0 h1 = .ok i) : i.length = 4 := by
  obtain ⟨-, he⟩ := decodeLong_sound hd
  rw [← Machine.encodeBytes_length, encodeBytes_of_long he]
  rfl

/-- Settles O4: bits 10 and 9 choose the decoder, and the bytes taken up are the encoding's. -/
theorem lengthFromFirstHalfWord : Obligations.LengthFromFirstHalfWord := by
  intro b0 b1 tail rest i h
  obtain ⟨-, hbytes⟩ := encodeOfDecode _ rest i h
  have htaken := congrArg List.length hbytes
  rw [List.length_append, Machine.encodeBytes_length] at htaken
  refine ⟨?_, htaken⟩
  obtain ⟨h0, hl, hd, hb⟩ | ⟨h0, h1, hl, hd, hb⟩ := decode_cases h
  · obtain ⟨rfl, -⟩ := halfBytes_append_eq_cons hb
    rw [isLong_join] at hl
    rw [length_of_decodeShort hd, if_neg (by simpa using hl)]
  · obtain ⟨rfl, -⟩ := halfBytes_append_eq_cons hb
    rw [isLong_join] at hl
    rw [length_of_decodeLong hd, if_pos (by simpa using hl)]

end Sys2Proof
end

section
/-!
PROOFS. The codes that are no defined instruction: the illegal op codes (R79), read off the round trip, and the rejected codes (R80,
R81). A code is rejected in three places only, which `decode_eq_error_iff` lists: JMP's entry, JR and JARL's, and the extended op
code.
-/

namespace Sys2Proof

/-! ### Illegal op codes -/

/-- Settles O5: the pattern's words are the encodings of the illegal op codes, by the round trip in both directions. -/
theorem illegalOpCodePattern : Obligations.IllegalOpCodePattern := by
  refine ⟨fun h0 h1 => ⟨?decodes, ?pattern⟩, ?restore⟩
  case decodes =>
    rintro ⟨hop, hsub⟩
    have hd := decodeOfEncode (.ilgop (h0.extractLsb' 11 5) (h0.extractLsb' 0 5) (h1.extractLsb' 11 5)
      (h1.extractLsb' 7 4) (h1.extractLsb' 0 7)) [] (decide_eq_true hsub)
    rw [encodeBytes_of_long (encode_ilgop_fields h1 hop), List.append_nil] at hd
    exact ⟨_, _, _, _, _, hd⟩
  case pattern =>
    rintro ⟨a, b, c, sub, d, h⟩
    obtain ⟨hwf, hb⟩ := encodeOfDecode _ _ _ h
    rw [List.append_nil, encodeBytes_of_long rfl] at hb
    obtain ⟨hb0, hb1⟩ := List.append_inj hb rfl
    rw [halfBytes_injective hb0, halfBytes_injective hb1, packI_op, illegal_subOp]
    exact ⟨rfl, of_decide_eq_true hwf⟩
  case restore =>
    intro a b c sub d s
    obtain ⟨e, hbank, hrestore, hexec⟩ := Machine.exec_exceptionInstr (.inr ⟨a, b, c, sub, d, rfl⟩) s
    exact ⟨_, hexec, by simp [hbank, hrestore]⟩

/-! ### 16-bit codes -/

theorem decodeShort_jmp {h0 : Half} (hop : h0.extractLsb' 5 6 = 0b000011#6) :
    decodeShort h0 =
      if h0.extractLsb' 11 5 = 0#5 then .ok (.jmp (regOf (h0.extractLsb' 0 5))) else .error .unrecognised := by
  simp [decodeShort, decodeFormatI, extract_row, extract_col, hop, regOf_eq_zero_iff]

theorem decodeFormatI_ok {h0 : Half} (hop : h0.extractLsb' 5 6 ≠ 0b000011#6) : ∃ i, decodeFormatI h0 = .ok i := by
  have hcol := (h0.extractLsb' 5 2).isLt
  unfold decodeFormatI
  split
  case h_4 => exact absurd (op_eq_of_row_col (by simp only [imp_false, BitVec.toNat_ofNat] at *; omega)) hop
  all_goals exact ⟨_, rfl⟩

theorem decodeFormatII_ok (h0 : Half) : ∃ i, decodeFormatII h0 = .ok i := by
  unfold decodeFormatII
  split
  all_goals exact ⟨_, rfl⟩

/-- Every 16-bit code but JMP's is an instruction. -/
theorem decodeShort_ok {h0 : Half} (hl : isLong h0 = false) (hop : h0.extractLsb' 5 6 ≠ 0b000011#6) :
    ∃ i, decodeShort h0 = .ok i := by
  have hrow : ¬ 12 ≤ (h0.extractLsb' 7 4).toNat := by rw [← isLong_iff_row, hl]; decide
  unfold decodeShort
  split
  case h_1 | h_2 | h_3 | h_4 => exact decodeFormatI_ok hop
  case h_5 | h_6 => exact decodeFormatII_ok h0
  case h_11 => split <;> exact ⟨_, rfl⟩
  case h_13 => simp only [imp_false] at *; omega
  all_goals exact ⟨_, rfl⟩

theorem decodeShort_eq_error_iff {h0 : Half} (hl : isLong h0 = false) (e : DecodeReject) :
    decodeShort h0 = .error e ↔ h0.extractLsb' 5 6 = 0b000011#6 ∧ h0.extractLsb' 11 5 ≠ 0#5 ∧ e = .unrecognised := by
  by_cases hop : h0.extractLsb' 5 6 = 0b000011#6
  · rw [decodeShort_jmp hop]
    by_cases hhi : h0.extractLsb' 11 5 = 0#5
    · simp [hhi]
    · simp [hop, hhi, eq_comm]
  · obtain ⟨i, hd⟩ := decodeShort_ok hl hop
    simp [hd, hop]

/-! ### 32-bit codes -/

/-- Every 32-bit code outside the entries of JR, JARL and the extended op code is an instruction. -/
theorem decodeLong_ok {h0 : Half} (h1 : Half) (hl : isLong h0 = true) (hjump : h0.extractLsb' 6 5 ≠ 0b11110#5)
    (hext : h0.extractLsb' 5 6 ≠ 0b111111#6) : ∃ i, decodeLong h0 h1 = .ok i := by
  have hrow := (isLong_iff_row h0).mp hl
  have hrowlt := (h0.extractLsb' 7 4).isLt
  have hcol := (h0.extractLsb' 5 2).isLt
  unfold decodeLong
  split
  case h_10 | h_12 => split <;> exact ⟨_, rfl⟩
  case h_13 => dsimp only; split <;> exact ⟨_, rfl⟩
  case h_14 hr hc => exact absurd (op_eq_of_row_col (by rw [hr, hc]; rfl)) hext
  case h_15 hr hc2 hc3 => exact absurd (jumpOp_of_row_col hr (by simp only [imp_false] at *; omega)) hjump
  case h_16 =>
    obtain hr | hr | hr | hr : (h0.extractLsb' 7 4).toNat = 12 ∨ (h0.extractLsb' 7 4).toNat = 13 ∨
      (h0.extractLsb' 7 4).toNat = 14 ∨ (h0.extractLsb' 7 4).toNat = 15 := by omega
    all_goals contradiction
  all_goals exact ⟨_, rfl⟩

theorem jumpOp_ne_of_extension {h : Half} (hop : h.extractLsb' 5 6 = 0b111111#6) : h.extractLsb' 6 5 ≠ 0b11110#5 := by
  have hbits : h.extractLsb' 6 5 = (h.extractLsb' 5 6).extractLsb' 1 5 := by grind
  rw [hbits, hop]
  decide

theorem decodeLong_eq_error_iff {h0 : Half} (h1 : Half) (hl : isLong h0 = true) (e : DecodeReject) :
    decodeLong h0 h1 = .error e ↔
      (h0.extractLsb' 6 5 = 0b11110#5 ∧ h1.getLsbD 0 = true ∧ e = .reservedField) ∨
      (h0.extractLsb' 5 6 = 0b111111#6 ∧ (h1.extractLsb' 7 4).toNat < 3 ∧ decodeExtension h0 h1 = .error e) := by
  by_cases hext : h0.extractLsb' 5 6 = 0b111111#6
  · have hjump := jumpOp_ne_of_extension hext
    rw [decodeLong_extension h1 hext]
    by_cases hsub : 3 ≤ (h1.extractLsb' 7 4).toNat
    · have hnot : ¬ (h1.extractLsb' 7 4).toNat < 3 := Nat.not_lt.mpr hsub
      simp only [if_pos hsub, hjump, hnot, reduceCtorEq, false_and, and_false, or_self]
    · have hlt : (h1.extractLsb' 7 4).toNat < 3 := Nat.lt_of_not_le hsub
      simp only [if_neg hsub, hjump, hext, hlt, false_and, false_or, true_and]
  · by_cases hjump : h0.extractLsb' 6 5 = 0b11110#5
    · rw [decodeLong_jump h1 hjump]
      cases hbit : h1.getLsbD 0
      · rw [if_neg Bool.false_ne_true]
        split <;> simp [hext]
      · simp [hjump, hext, eq_comm]
    · obtain ⟨i, hd⟩ := decodeLong_ok h1 hl hjump hext
      simp [hd, hjump, hext]

/-! ### Two half-words -/

theorem map_eq_error_iff {ε α β : Type} (f : α → β) (x : Except ε α) (e : ε) : x.map f = .error e ↔ x = .error e := by
  cases x <;> simp [Except.map]

/-- The three places where two half-words are rejected (R80, R81). -/
theorem decode_eq_error_iff (h0 h1 : Half) (e : DecodeReject) :
    decode (halfBytes h0 ++ halfBytes h1) = .error e ↔
      (h0.extractLsb' 5 6 = 0b000011#6 ∧ h0.extractLsb' 11 5 ≠ 0#5 ∧ e = .unrecognised) ∨
      (h0.extractLsb' 6 5 = 0b11110#5 ∧ h1.getLsbD 0 = true ∧ e = .reservedField) ∨
      (h0.extractLsb' 5 6 = 0b111111#6 ∧ (h1.extractLsb' 7 4).toNat < 3 ∧ decodeExtension h0 h1 = .error e) := by
  cases hl : isLong h0
  · have hjump : h0.extractLsb' 6 5 ≠ 0b11110#5 := fun h => by simp [isLong_of_jumpOp h] at hl
    have hext : h0.extractLsb' 5 6 ≠ 0b111111#6 := fun h => by simp [isLong_of_op h] at hl
    rw [decode_short _ hl, map_eq_error_iff, decodeShort_eq_error_iff hl]
    simp [hjump, hext]
  · have hjmp : h0.extractLsb' 5 6 ≠ 0b000011#6 := fun h => by simp [isLong_of_op h] at hl
    rw [← List.append_nil (halfBytes h1), decode_long h1 [] hl, map_eq_error_iff, decodeLong_eq_error_iff h1 hl]
    simp [hjmp]

/-! ### The extended op code (maps (e) and (f), R77) -/

/-- The twelve sub-op codes below those of the illegal op codes. -/
theorem subOp_cases {h : Half} (hsub : (h.extractLsb' 7 4).toNat < 3) :
    h.extractLsb' 5 6 ∈ [0#6, 1#6, 2#6, 3#6, 4#6, 5#6, 6#6, 7#6, 8#6, 9#6, 10#6, 11#6] := by
  rw [extract_row] at hsub
  generalize h.extractLsb' 5 6 = sub at hsub
  revert sub; decide

theorem row_lt_of_subOp {h : Half} {sub : BitVec 6} (hs : h.extractLsb' 5 6 = sub)
    (hlt : (sub.extractLsb' 2 4).toNat < 3) : (h.extractLsb' 7 4).toNat < 3 := by
  rwa [extract_row, hs]

/-- An undefined entry of map (e) or (f) (R80 a, b). -/
def UndefinedEntry (h0 h1 : Half) : Prop :=
  h1.extractLsb' 5 6 = 0b000011#6 ∨ h1.extractLsb' 5 6 = 0b000111#6 ∨
    (h1.extractLsb' 5 6 = 0b001011#6 ∧ h0.extractLsb' 13 2 ≠ 0#2)

/-- A defined entry of map (e) or (f) with a non-zero bit among those that R81 reserves in it. -/
def ReservedBitSet (h0 h1 : Half) : Prop :=
  (h1.extractLsb' 5 6 = 0#6 ∧ h0.getLsbD 4 = true) ∨
  (h1.extractLsb' 5 6 ∈ [8#6, 9#6, 10#6] ∧ h0.extractLsb' 11 5 ≠ 0#5) ∨
  (h1.extractLsb' 5 6 = 11#6 ∧ h0.extractLsb' 13 2 = 0#2 ∧ h0.extractLsb' 11 2 ≠ 0#2) ∨
  (h1.extractLsb' 5 6 ∈ [9#6, 10#6] ∧ h0.extractLsb' 0 5 ≠ 0#5) ∨
  (h1.extractLsb' 5 6 = 11#6 ∧ h0.extractLsb' 13 2 = 0#2 ∧ h0.extractLsb' 0 5 ≠ 0#5) ∨
  ((h1.extractLsb' 5 6 ∈ [0#6, 1#6, 2#6, 4#6, 5#6, 6#6, 8#6, 9#6, 10#6] ∨
      (h1.extractLsb' 5 6 = 11#6 ∧ h0.extractLsb' 13 2 = 0#2)) ∧
    (h1.extractLsb' 11 5 ≠ 0#5 ∨ h1.extractLsb' 0 5 ≠ 0#5))

theorem UndefinedEntry.row_lt {h0 h1 : Half} (h : UndefinedEntry h0 h1) : (h1.extractLsb' 7 4).toNat < 3 := by
  obtain hs | hs | ⟨hs, -⟩ := h
  all_goals exact row_lt_of_subOp hs (by decide)

theorem ReservedBitSet.row_lt {h0 h1 : Half} (h : ReservedBitSet h0 h1) : (h1.extractLsb' 7 4).toNat < 3 := by
  by_contra hsub
  have hne : ∀ k : BitVec 6, (k.extractLsb' 2 4).toNat < 3 → h1.extractLsb' 5 6 ≠ k :=
    fun k hk hs => hsub (row_lt_of_subOp hs hk)
  simp [ReservedBitSet, hne] at h

theorem ite_ok_eq_error_iff {ε α : Type} {c : Prop} [Decidable c] (a : α) (r e : ε) :
    (if c then Except.ok a else .error r) = Except.error e ↔ ¬ c ∧ r = e := by
  by_cases hc : c <;> simp [hc]

theorem decodeExtension_unrecognised_iff (h0 : Half) {h1 : Half} (hsub : (h1.extractLsb' 7 4).toNat < 3) :
    decodeExtension h0 h1 = .error .unrecognised ↔ UndefinedEntry h0 h1 := by
  have hcases := subOp_cases hsub
  simp only [List.mem_cons, List.not_mem_nil, or_false] at hcases
  obtain hs | hs | hs | hs | hs | hs | hs | hs | hs | hs | hs | hs := hcases
  all_goals simp [decodeExtension, UndefinedEntry, hs, ite_ok_eq_error_iff]

theorem decodeExtension_reserved_iff (h0 : Half) {h1 : Half} (hsub : (h1.extractLsb' 7 4).toNat < 3) :
    decodeExtension h0 h1 = .error .reservedField ↔ ReservedBitSet h0 h1 := by
  have hcases := subOp_cases hsub
  simp only [List.mem_cons, List.not_mem_nil, or_false] at hcases
  obtain hs | hs | hs | hs | hs | hs | hs | hs | hs | hs | hs | hs := hcases
  all_goals by_cases hdef : h0.extractLsb' 13 2 = 0#2
  all_goals simp [decodeExtension, ReservedBitSet, hs, hdef]
  all_goals tauto

/-! ### The two rejections -/

/-- Settles O6: JMP's entry and the undefined entries of the extended op code are the places that answer `unrecognised`. -/
theorem codesNotRecognised : Obligations.CodesNotRecognised := by
  intro h0 h1
  rw [decode_eq_error_iff]
  constructor
  · rintro (⟨hop, hhi, -⟩ | ⟨-, -, he⟩ | ⟨hop, hsub, he⟩)
    · exact .inr (.inr ⟨hop, hhi⟩)
    · cases he
    · obtain hs | hs | ⟨hs, hbits⟩ := (decodeExtension_unrecognised_iff h0 hsub).mp he
      · exact .inl ⟨hop, .inl hs⟩
      · exact .inl ⟨hop, .inr hs⟩
      · exact .inr (.inl ⟨hop, hs, hbits⟩)
  · have hundefined (hop : h0.extractLsb' 5 6 = 0b111111#6) (hu : UndefinedEntry h0 h1) :=
      And.intro hop (And.intro hu.row_lt ((decodeExtension_unrecognised_iff h0 hu.row_lt).mpr hu))
    rintro (⟨hop, hs | hs⟩ | ⟨hop, hs, hbits⟩ | ⟨hop, hhi⟩)
    · exact .inr (.inr (hundefined hop (.inl hs)))
    · exact .inr (.inr (hundefined hop (.inr (.inl hs))))
    · exact .inr (.inr (hundefined hop (.inr (.inr ⟨hs, hbits⟩))))
    · exact .inl ⟨hop, hhi, rfl⟩

/-- Settles O7: bit 16 of JR and JARL and the reserved bits of the extended op code are what answers `reservedField`. -/
theorem reservedBitsRejected : Obligations.ReservedBitsRejected := by
  intro h0 h1
  rw [decode_eq_error_iff]
  constructor
  · rintro (⟨-, -, he⟩ | ⟨hop, h16, -⟩ | ⟨hop, hsub, he⟩)
    · cases he
    · exact .inl ⟨hop, h16⟩
    · exact .inr ⟨hop, (decodeExtension_reserved_iff h0 hsub).mp he⟩
  · rintro (⟨hop, h16⟩ | ⟨hop, hrfu⟩)
    · exact .inr (.inl ⟨hop, h16, rfl⟩)
    · have hsub := ReservedBitSet.row_lt hrfu
      exact .inr (.inr ⟨hop, hsub, (decodeExtension_reserved_iff h0 hsub).mpr hrfu⟩)

end Sys2Proof
end

section
/-!
PROOFS. The conditions after a comparison (R171), said of the flags of a difference; the exception of an illegal op code; the step
that runs the decoded instruction.
-/

namespace Sys2Proof.Machine

/-! ### The conditions after a comparison -/

/-- S differs from OV exactly when the exact difference is negative, whether or not it wraps. -/
theorem toInt_sub_neg_differs_iff (a b : Word) :
    ¬ ((a - b).toInt < 0 ↔ OutOfWord (a.toInt - b.toInt)) ↔ a.toInt < b.toInt := by
  have ha := a.toInt_lt
  have ha' := a.le_toInt
  have hb := b.toInt_lt
  have hb' := b.le_toInt
  rw [BitVec.toInt_sub, Int.bmod_def, OutOfWord]
  norm_num at *
  omega

theorem toNat_sub_eq_zero_iff (a b : Word) : (a - b).toNat = 0 ↔ a = b := by
  have ha := a.isLt
  have hb := b.isLt
  rw [← BitVec.toNat_inj, BitVec.toNat_sub]
  omega

theorem condTrue_of_differenceFlags {a b : Word} {p q : Psw} (h : DifferenceFlags a b p q) :
    (CondTrue q .c ↔ a.toNat < b.toNat) ∧ (CondTrue q .nc ↔ b.toNat ≤ a.toNat) ∧
    (CondTrue q .nh ↔ a.toNat ≤ b.toNat) ∧ (CondTrue q .h ↔ b.toNat < a.toNat) ∧
    (CondTrue q .lt ↔ a.toInt < b.toInt) ∧ (CondTrue q .ge ↔ b.toInt ≤ a.toInt) ∧
    (CondTrue q .le ↔ a.toInt ≤ b.toInt) ∧ (CondTrue q .gt ↔ b.toInt < a.toInt) ∧
    (CondTrue q .z ↔ a = b) ∧ (CondTrue q .nz ↔ a ≠ b) := by
  obtain ⟨hbelow, hov, ⟨hs, hz⟩, -⟩ := h
  have hequal : Psw.z q = true ↔ a = b := hz.trans (toNat_sub_eq_zero_iff a b)
  have hless : Psw.s q ≠ Psw.ov q ↔ a.toInt < b.toInt := by
    rw [ne_eq, Bool.eq_iff_iff, hs, hov, toInt_sub_neg_differs_iff]
  have hgeq : Psw.s q = Psw.ov q ↔ b.toInt ≤ a.toInt := by rw [← not_ne_iff, hless, Int.not_lt]
  have hnat : a = b ↔ a.toNat = b.toNat := BitVec.toNat_inj.symm
  have hint : a = b ↔ a.toInt = b.toInt := BitVec.toInt_inj.symm
  refine ⟨hbelow, ?nc, ?nh, ?h, hless, hgeq, ?le, ?gt, hequal, ?nz⟩
  case nc => simp only [CondTrue, ← Bool.not_eq_true, hbelow, Nat.not_lt]
  case nh => simp only [CondTrue, hbelow, hequal, hnat, Nat.le_iff_lt_or_eq]
  case h => simp only [CondTrue, ← Bool.not_eq_true, hbelow, hequal, hnat]; omega
  case le => simp only [CondTrue, hless, hequal, hint, Int.le_iff_lt_or_eq]
  case gt => simp only [CondTrue, ← Bool.not_eq_true, hgeq, hequal, hint]; omega
  case nz => simp only [CondTrue, ← Bool.not_eq_true, hequal, ne_eq]

theorem differenceFlags_of_compareTo {i : Instr} {s t : State} {a b : Word} {n : Nat}
    (h : exec i s = compareTo (aluSub a b) n s) (ht : exec i s = .next t) : DifferenceFlags a b s.psw t.psw := by
  obtain ⟨u, hu, hflags, -⟩ := setsFlagsOnly_of_compareTo h (differenceFlags_aluSub a b s.psw)
  cases hu.symm.trans ht
  exact hflags

/-- Settles O21: both forms leave the flags of the difference, and those order the operands. -/
theorem conditionsOrderComparedOperands : Obligations.ConditionsOrderComparedOperands := by
  intro s t reg2 a b ha hcmp
  simp only [Psw.holds_iff]
  obtain ⟨reg1, rfl, ht⟩ | ⟨imm5, rfl, ht⟩ := hcmp
  all_goals
    subst ha
    exact condTrue_of_differenceFlags (differenceFlags_of_compareTo rfl ht)

/-! ### The illegal op code and the step -/

/-- Settles O45: the entry is `ilgopEntry` through the EI bank, so FEPC, FEPSW, FECC and NP are kept. -/
theorem illegalOpCodeTakesException : Obligations.IllegalOpCodeTakesException := by
  intro s a b c sub d
  refine ⟨s.enter (ilgopEntry s), rfl, ?_⟩
  simp [ilgopEntry, ilgopCode, ConditionsKept, RegsKept, MemKept, ModeKept, BookKept]

/-- Settles O55: the three hypotheses are `RunsInstruction`. -/
theorem stepRunsDecodedInstruction : Obligations.StepRunsDecodedInstruction := fun _ _ hnothing hhalted hdecodes =>
  step_of_runsInstruction ⟨hnothing, hhalted, hdecodes⟩

end Sys2Proof.Machine
end

section
/-!
PROOFS. Printed words: a word decodes to an instruction exactly when its bytes begin with that instruction's encoding, so the examples
of the rules are checked against the encoder, field by field.
-/

namespace Sys2Proof

/-- Both directions of the round trip, said of the words of the op code table (R83, R87). -/
theorem decodeTableWord_eq_some_iff {nbits w : Nat} {i : Instr} :
    decodeTableWord nbits w = some i ↔ i.wf = true ∧ encodeBytes i <+: tableBytes nbits w := by
  constructor
  · intro h
    unfold decodeTableWord at h
    split at h
    · next j rest hd =>
      cases h
      obtain ⟨hwf, hbytes⟩ := encodeOfDecode _ _ _ hd
      exact ⟨hwf, rest, hbytes.symm⟩
    · cases h
  · rintro ⟨hwf, rest, hbytes⟩
    rw [decodeTableWord, ← hbytes, decodeOfEncode i rest hwf]

/-- Settles O3: each instruction is well-formed, and its encoding is the printed word's first bytes. -/
theorem printedWordsDecode : Obligations.PrintedWordsDecode := by
  refine ⟨?movReg, ?movImm, ?movhi, ?addReg, ?sataddImm, ?shlImm, ?sldB, ?ldW, ?bne, ?jarl, ?set1, ?setf, ?ldsr, ?stsr,
    ?trap, ?ilgop⟩
  all_goals exact decodeTableWord_eq_some_iff.mpr (by decide)

end Sys2Proof
end

section
/-!
PROOFS. The multiplications, the division and SETF: a product of two half-words and a quotient fit in a word, so the wrapped value that
the model stores is the exact one; `divTo` writes OV, S and Z alone. SETF writes the truth of its condition (R171).
-/

namespace Sys2Proof.Machine

/-! ### Half-words and their products (R129 to R131) -/

theorem lowHalfInt_eq_s16 (v : Word) : lowHalfInt v = s16 v := by
  rw [lowHalfInt, s16, BitVec.setWidth_eq_extractLsb' (by decide)]

theorem abs_toInt_le {n : Nat} (b : BitVec n) (hn : n ≤ 16) : |b.toInt| ≤ 32768 := by
  have hpow : (2 : Int) ^ (n - 1) ≤ 2 ^ 15 := pow_le_pow_right₀ (by decide) (by omega)
  have hlow := b.le_toInt
  have hhigh := b.toInt_lt
  rw [abs_le]
  omega

theorem toInt_mulHalf {a b : Int} (ha : |a| ≤ 32768) (hb : |b| ≤ 32768) : (mulHalf a b).toInt = a * b := by
  have hprod : |a * b| ≤ 32768 * 32768 := abs_mul a b ▸ mul_le_mul ha hb (abs_nonneg b) (by decide)
  rw [abs_le] at hprod
  exact toInt_ofInt_of_inRange (by rw [OutOfWord]; omega)

/-- Settles O22: each form ends in `moveTo` with the product of two factors that a half-word holds. -/
theorem multipliesWriteSignedProduct : Obligations.MultipliesWriteSignedProduct := by
  intro s reg1 reg2 imm5 imm16
  simp only [← lowHalfInt_eq_s16]
  have hhalf (v : Word) : |lowHalfInt v| ≤ 32768 := abs_toInt_le _ le_rfl
  exact ⟨⟨_, toInt_mulHalf (hhalf _) (hhalf _), writesOnly_of_moveTo rfl⟩,
    ⟨_, toInt_mulHalf (hhalf _) (abs_toInt_le imm5 (by decide)), writesOnly_of_moveTo rfl⟩,
    ⟨_, toInt_mulHalf (hhalf _) (abs_toInt_le imm16 le_rfl), writesOnly_of_moveTo rfl⟩⟩

/-! ### The quotient (R132) -/

/-- The only quotient of a word that no word holds is that of the least word by -1. -/
theorem tdiv_inRange (n : Word) {d : Int} (hd : d ≠ 0) (hover : ¬ (n.toInt = -2 ^ 31 ∧ d = -1)) :
    ¬ OutOfWord (Int.tdiv n.toInt d) := by
  have hlow := n.le_toInt
  have hhigh := n.toInt_lt
  rw [OutOfWord]
  by_cases hunit : d = 1 ∨ d = -1
  · obtain rfl | rfl := hunit
    · rw [Int.tdiv_one]
      omega
    · rw [Int.tdiv_neg, Int.tdiv_one]
      omega
  · have hhalved : (Int.tdiv n.toInt d).natAbs ≤ n.toInt.natAbs / 2 :=
      Int.natAbs_tdiv n.toInt d ▸ Nat.div_le_div_left (by omega) (by decide)
    omega

theorem toInt_eq_least_iff (v : Word) : v.toInt = -2 ^ 31 ↔ v = 0x80000000#32 := by
  rw [← BitVec.toInt_inj]
  rfl

theorem execDivh_zero {reg1 : Reg} {s : State} (h : s16 (s.reg reg1) = 0) (reg2 : Reg) :
    execDivh reg1 reg2 s =
      divTo reg2 (Config.divhQuotient s.freeCount) true (Config.divhSign s.freeCount) (Config.divhZero s.freeCount) s.tick :=
  if_pos ((lowHalfInt_eq_s16 _).trans h)

theorem execDivh_overflow {reg1 reg2 : Reg} {s : State} (hn : s.reg reg2 = 0x80000000#32) (hd : s16 (s.reg reg1) = -1) :
    execDivh reg1 reg2 s =
      divTo reg2 0x80000000#32 true (signFlag 0x80000000#32) (zeroFlag 0x80000000#32) s := by
  unfold execDivh
  rw [lowHalfInt_eq_s16, hn, hd]
  rfl

theorem execDivh_quotient {reg1 reg2 : Reg} {s : State} (hd : s16 (s.reg reg1) ≠ 0)
    (hover : ¬ ((s.reg reg2).toInt = -2 ^ 31 ∧ s16 (s.reg reg1) = -1)) {q : Word}
    (hq : q = BitVec.ofInt 32 (Int.tdiv (s.reg reg2).toInt (s16 (s.reg reg1)))) :
    execDivh reg1 reg2 s = divTo reg2 q false (signFlag q) (zeroFlag q) s := by
  simp only [execDivh, lowHalfInt_eq_s16, aluDiv, if_neg hd, if_neg hover, hq]

theorem signZero_setOvSZ (ov : Bool) (r : Word) (p : Psw) :
    SignZero r (Psw.setOvSZ ov (signFlag r) (zeroFlag r) p) := by
  simp [SignZero, signFlag_iff, zeroFlag_iff]

theorem quotientFlags_setOvSZ (ov : Bool) (r : Word) (p : Psw) :
    QuotientFlags ov r p (Psw.setOvSZ ov (signFlag r) (zeroFlag r) p) :=
  ⟨Psw.cy_setOvSZ _ _ _ _, Psw.ov_setOvSZ _ _ _ _, signZero_setOvSZ ov r p, statusKept_setOvSZ _ _ _ p⟩

/-- An instruction that ends in `divTo` with the flags of its quotient writes both and keeps the rest, CY among it. -/
theorem writesWithFlags_of_divTo {i : Instr} {s : State} {reg2 : Reg} {q : Word} {ov : Bool}
    (h : exec i s = divTo reg2 q ov (signFlag q) (zeroFlag q) s) :
    WritesWithFlags i s reg2 q (QuotientFlags ov q) 2 := by
  obtain ⟨hframe, hwritten, hpsw⟩ := frameBut_of_write (s := s) (reg2 := reg2) (v := q)
    (p := Psw.setOvSZ ov (signFlag q) (zeroFlag q) s.psw) (a := s.pc + 2#24) rfl
  exact ⟨_, h, hwritten, hpsw ▸ quotientFlags_setOvSZ ov q s.psw, hframe, rfl⟩

/-- Settles O23: away from 80000000h / -1 the quotient fits in a word, so the stored value is exact. -/
theorem divhWritesQuotient : Obligations.DivhWritesQuotient := by
  intro s reg1 reg2 hd
  split
  · next hover =>
    obtain ⟨hleast, hminus⟩ := hover
    exact writesWithFlags_of_divTo (execDivh_overflow hleast hminus)
  · next hover =>
    rw [← toInt_eq_least_iff] at hover
    exact ⟨_, toInt_ofInt_of_inRange (tdiv_inRange (s.reg reg2) hd hover),
      writesWithFlags_of_divTo (execDivh_quotient hd hover rfl)⟩

/-- Settles O24: the ending is `divTo` with the free values of the index, after the index is taken up. -/
theorem divhByZero : Obligations.DivhByZero := by
  intro s reg1 reg2 hd
  obtain ⟨⟨hregs, hsys, hmem, hmode, -, hevents⟩, hwritten, hpsw⟩ := frameBut_of_write (s := s.tick) (reg2 := reg2)
    (v := Config.divhQuotient s.freeCount) (a := s.pc + 2#24)
    (p := Psw.setOvSZ true (Config.divhSign s.freeCount) (Config.divhZero s.freeCount) s.psw) rfl
  refine ⟨_, execDivh_zero hd reg2, hwritten, ?overflow, ?sign, ?zero, ?carry, ?status, hregs, hsys, hmem, hmode, hevents, rfl⟩
  case overflow => exact Psw.ov_setOvSZ _ _ _ _
  case sign => exact Psw.s_setOvSZ _ _ _ _
  case zero => exact Psw.z_setOvSZ _ _ _ _
  case carry => exact Psw.cy_setOvSZ _ _ _ _
  case status => exact statusKept_setOvSZ _ _ _ _

/-! ### SETF -/

/-- Settles O25: SETF ends in `moveTo` with 1 or 0 by `Psw.holds`, which is the expression of R171. -/
theorem setfWritesCondition : Obligations.SetfWritesCondition := by
  intro s cccc reg2
  have hset : WritesOnly (.setf cccc reg2) s reg2 (if Psw.holds s.psw cccc then 1#32 else 0#32) 4 := writesOnly_of_moveTo rfl
  rw [← Psw.holds_iff]
  constructor
  · intro hc
    rwa [if_pos hc] at hset
  · intro hc
    rwa [if_neg hc] at hset

end Sys2Proof.Machine
end

section
/-!
PROOFS. The saturated operations (R140 to R145): the word that `aluSaturate` stores is the exact result clamped, and the ending `satTo`
writes it with its flags, sets SAT on overflow, moves past the instruction and keeps everything else.
-/

namespace Sys2Proof.Machine

/-! ### The fields of a saturated result -/

section Fields

variable (exact : Int) (o : Alu)

@[simp] theorem aluSaturate_cy : (aluSaturate exact o).cy = o.cy := rfl
@[simp] theorem aluSaturate_ov : (aluSaturate exact o).ov = o.ov := rfl
@[simp] theorem aluSaturate_s : (aluSaturate exact o).s = signFlag (aluSaturate exact o).r := rfl
@[simp] theorem aluSaturate_z : (aluSaturate exact o).z = zeroFlag (aluSaturate exact o).r := rfl

end Fields

/-! ### The flags and the ending -/

/-- The PSW after a saturated operation: its four flags, and SAT where it overflowed (R140, C2). -/
def Alu.saturatedIn (o : Alu) (p : Psw) : Psw := Psw.setSat (Psw.sat (o.flagsIn p) || o.ov) (o.flagsIn p)

theorem saturatedFlags_aluSaturate {exact : Int} {carry : Prop} {o : Alu} (hov : o.ov = outOfRange exact)
    (hcy : o.cy = true ↔ carry) (p : Psw) :
    SaturatedFlags exact carry (aluSaturate exact o).r p ((aluSaturate exact o).saturatedIn p) := by
  have hover : o.ov = true ↔ OutOfWord exact := hov ▸ outOfRange_iff exact
  refine ⟨?carry, ?overflow, ?signZero, ?sat, ?id, ?ep, ?np⟩
  case carry => simp [Alu.saturatedIn, Alu.flagsIn, hcy]
  case overflow => simp [Alu.saturatedIn, Alu.flagsIn, hover]
  case signZero => simp [Alu.saturatedIn, Alu.flagsIn, SignZero, signFlag_iff, zeroFlag_iff]
  case sat => simp [Alu.saturatedIn, Alu.flagsIn, hover]
  all_goals simp [Alu.saturatedIn, Alu.flagsIn]

/-- The instruction writes the exact result clamped to a word to `reg2`, with the flags of R140, and keeps the rest. -/
def StoresClamped (i : Instr) (s : State) (reg2 : Reg) (exact : Int) (carry : Prop) (n : Nat) : Prop :=
  ∃ r : Word, r.toInt = clamp exact ∧ WritesWithFlags i s reg2 r (SaturatedFlags exact carry r) n

/-- An instruction that ends in `satTo` stores the exact result clamped, where the ordinary operation `o` wraps the exact result and
tests it for overflow. -/
theorem storesClamped_of_satTo {i : Instr} {s : State} {reg2 : Reg} {exact : Int} {carry : Prop} {o : Alu} {n : Nat}
    (h : exec i s = satTo reg2 (aluSaturate exact o) n s) (hr : o.r = BitVec.ofInt 32 exact)
    (hov : o.ov = outOfRange exact) (hcy : o.cy = true ↔ carry) : StoresClamped i s reg2 exact carry n := by
  obtain ⟨hframe, hwritten, hpsw⟩ := frameBut_of_write (s := s) (reg2 := reg2) (v := (aluSaturate exact o).r)
    (p := (aluSaturate exact o).saturatedIn s.psw) (a := s.pc + BitVec.ofNat 24 n) rfl
  exact ⟨_, aluSaturate_clamps hr hov, _, h, hwritten, hpsw ▸ saturatedFlags_aluSaturate hov hcy s.psw, hframe, rfl⟩

/-! ### Sums and differences -/

theorem storesClamped_of_satAdd {i : Instr} {s : State} {reg2 : Reg} {a b : Word} {n : Nat}
    (h : exec i s = satTo reg2 (aluSatAdd a b) n s) :
    StoresClamped i s reg2 (a.toInt + b.toInt) (4294967296 ≤ a.toNat + b.toNat) n := by
  have hwraps : (aluAdd a b).r = BitVec.ofInt 32 (a.toInt + b.toInt) := by simp [aluAdd, BitVec.ofInt_add]
  exact storesClamped_of_satTo h hwraps rfl (by simp [aluAdd])

theorem storesClamped_of_satSub {i : Instr} {s : State} {reg2 : Reg} {a b : Word} {n : Nat}
    (h : exec i s = satTo reg2 (aluSatSub a b) n s) :
    StoresClamped i s reg2 (a.toInt - b.toInt) (a.toNat < b.toNat) n := by
  have hwraps : (aluSub a b).r = BitVec.ofInt 32 (a.toInt - b.toInt) := by
    simp [aluSub, sub_eq_add_neg, BitVec.ofInt_add, BitVec.ofInt_neg]
  exact storesClamped_of_satTo h hwraps rfl (by simp [aluSub])

/-- Settles O26: each of the five ends in `satTo` with the saturated sum or difference of its operands; an immediate keeps its value
when it is sign-extended (R72). -/
theorem saturatedOperationsClamp : Obligations.SaturatedOperationsClamp := by
  intro s reg1 reg2 imm5 imm16
  have himm5 : (imm5.signExtend 32).toInt = imm5.toInt := BitVec.toInt_signExtend_of_le (by decide)
  have himm16 : (imm16.signExtend 32).toInt = imm16.toInt := BitVec.toInt_signExtend_of_le (by decide)
  rw [← himm5, ← himm16]
  refine ⟨?sataddReg, ?sataddImm, ?satsub, ?satsubi, ?satsubr⟩
  case sataddReg => exact storesClamped_of_satAdd rfl
  case sataddImm => exact storesClamped_of_satAdd (b := sextImm5 imm5) rfl
  case satsub => exact storesClamped_of_satSub rfl
  case satsubi => exact storesClamped_of_satSub (b := sextImm16 imm16) rfl
  case satsubr => exact storesClamped_of_satSub rfl

end Sys2Proof.Machine
end

section
/-!
PROOFS. The logical operations and the shifts (R150 to R166): the shifted words and the last bit out said in integer arithmetic, and
the endings `logicTo` and `shiftTo`, which write the result and its flags, move past the instruction and keep everything else.
-/

namespace Sys2Proof.Machine

/-! ### Logical operations (R150 to R157, R166) -/

/-- The flags of a logical operation are those of a quotient that did not overflow. -/
theorem logicFlags_setOvSZ (r : Word) (p : Psw) : LogicFlags r p (Psw.setOvSZ false (signFlag r) (zeroFlag r) p) :=
  quotientFlags_setOvSZ false r p

/-- An instruction that ends in `logicTo` writes the result and its flags and keeps the rest. -/
theorem writesWithFlags_of_logicTo {i : Instr} {s : State} {reg2 : Reg} {r : Word} {n : Nat} {flags : Psw → Psw → Prop}
    (h : exec i s = logicTo reg2 r n s) (hf : flags s.psw (Psw.setOvSZ false (signFlag r) (zeroFlag r) s.psw)) :
    WritesWithFlags i s reg2 r flags n := by
  obtain ⟨hframe, hwritten, hpsw⟩ := frameBut_of_write (s := s) (t := ((s.setReg reg2 r).setLogic r).advance n)
    (p := Psw.setOvSZ false (signFlag r) (zeroFlag r) s.psw) rfl
  exact ⟨_, h, hwritten, hpsw ▸ hf, hframe, rfl⟩

theorem tst_setsFlagsOnly (reg1 reg2 : Reg) (s : State) :
    SetsFlagsOnly (.tst reg1 reg2) s (LogicFlags (s.reg reg2 &&& s.reg reg1)) 2 := by
  obtain ⟨hframe, hpsw⟩ :=
    frameBut_of_flags (s := s) (t := (s.setLogic (s.reg reg2 &&& s.reg reg1)).advance 2) rfl
  exact ⟨_, rfl, hpsw ▸ logicFlags_setOvSZ (s.reg reg2 &&& s.reg reg1) s.psw, hframe, rfl⟩

/-- Bit 31 of a zero-extended half-word is 0, so S of ANDI is (C3). -/
theorem signFlag_and_zextImm16 (v : Word) (imm16 : BitVec 16) : signFlag (v &&& zextImm16 imm16) = false := by
  simp [signFlag, zextImm16]

/-- Settles O27: seven of the eight end in `logicTo` with their result, and TST writes the flags of the AND alone. -/
theorem logicalsWriteResultAndFlags : Obligations.LogicalsWriteResultAndFlags := by
  intro s reg1 reg2 imm16
  refine ⟨?orReg, ?andReg, ?xorReg, ?notReg, ?ori, ?andi, ?xori, tst_setsFlagsOnly reg1 reg2 s⟩
  case andi =>
    have hsign := signFlag_and_zextImm16 (s.reg reg1) imm16
    exact writesWithFlags_of_logicTo rfl ⟨logicFlags_setOvSZ _ _, (Psw.s_setOvSZ _ _ _ _).trans hsign⟩
  all_goals exact writesWithFlags_of_logicTo rfl (logicFlags_setOvSZ _ _)

/-! ### Shifts (R158 to R163, R165) -/

theorem countReg_eq_mod (v : Word) : countReg v = v.toNat % 32 := by
  rw [countReg, BitVec.extractLsb'_toNat, Nat.shiftRight_zero]

theorem getLsbD_iff_div_mod {w : Nat} (v : BitVec w) (k : Nat) : v.getLsbD k = true ↔ v.toNat / 2 ^ k % 2 = 1 := by
  rw [← BitVec.testBit_toNat, Nat.testBit_eq_decide_div_mod_eq, decide_eq_true_iff]

theorem shiftLeft_eq_ofNat_mul {w : Nat} (v : BitVec w) (n : Nat) : v <<< n = BitVec.ofNat w (v.toNat * 2 ^ n) :=
  BitVec.eq_of_toNat_eq (by rw [BitVec.toNat_shiftLeft, Nat.shiftLeft_eq, BitVec.toNat_ofNat])

theorem ushiftRight_eq_ofNat_div {w : Nat} (v : BitVec w) (n : Nat) : v >>> n = BitVec.ofNat w (v.toNat / 2 ^ n) :=
  eq_ofNat_of_toNat_eq (by rw [BitVec.toNat_ushiftRight, Nat.shiftRight_eq_div_pow])

/-- Dividing by a positive number, `/` rounds down as `Int.fdiv` does. -/
theorem sshiftRight_eq_ofInt_fdiv {w : Nat} (v : BitVec w) (n : Nat) :
    v.sshiftRight n = BitVec.ofInt w (Int.fdiv v.toInt (2 ^ n)) := by
  rw [BitVec.sshiftRight, Int.shiftRight_eq_div_pow, Int.fdiv_eq_ediv_of_nonneg _ (by positivity)]
  norm_cast

/-- The flags of a shift by `n` whose last bit out is bit `k` of `v`. -/
theorem shiftFlags_aluShift (n k : Nat) (v r : Word) (p : Psw) :
    ShiftFlags (1 ≤ n ∧ v.toNat / 2 ^ k % 2 = 1) r p ((aluShift n (v.getLsbD k) r).flagsIn p) := by
  refine ⟨?carry, ?overflow, signZero_setArith _ _ r p, statusKept_setArith _ _ _ _ p⟩
  case carry => simp [Alu.flagsIn, aluShift, getLsbD_iff_div_mod, Nat.one_le_iff_ne_zero]
  case overflow => simp [Alu.flagsIn, aluShift]

/-- An instruction that ends in `shiftTo` writes the shifted value and its flags and keeps the rest: the ending is that of the
arithmetic operations. -/
theorem writesWithFlags_of_shiftTo {i : Instr} {s : State} {reg2 : Reg} {v r : Word} {n k len : Nat}
    (h : exec i s = shiftTo reg2 (aluShift n (v.getLsbD k) r) len s) :
    WritesWithFlags i s reg2 r (ShiftFlags (1 ≤ n ∧ v.toNat / 2 ^ k % 2 = 1) r) len :=
  writesWithFlags_of_arithTo h (shiftFlags_aluShift n k v r s.psw)

/-- Settles O28: each form ends in `shiftTo` with its word shifted by its count, and the three shifts are the arithmetic of R165. -/
theorem shiftsWriteResultAndFlags : Obligations.ShiftsWriteResultAndFlags := by
  intro s reg1 reg2 imm5 n v left right arith hv hleft hright harith
  rw [← shiftLeft_eq_ofNat_mul] at hleft
  rw [← ushiftRight_eq_ofNat_div] at hright
  rw [← sshiftRight_eq_ofInt_fdiv] at harith
  subst hv hleft hright harith
  rw [← countReg_eq_mod]
  refine ⟨?register, ?immediate⟩
  all_goals
    rintro rfl
    exact ⟨writesWithFlags_of_shiftTo rfl, writesWithFlags_of_shiftTo rfl, writesWithFlags_of_shiftTo rfl⟩

end Sys2Proof.Machine
end

section
/-!
PROOFS. The conditional branches (R175): what `branch_jumpsTo` says with `Psw.holds`, said with the expression of R171 over the flags,
once for every condition.
-/

namespace Sys2Proof.Machine

theorem branch_branchesOn (cond : Cond) (d : BitVec 9) (s : State) : BranchesOn (Cond.branch cond d) s cond d := by
  have hjump := branch_jumpsTo cond d s
  rw [BranchesOn, ← Psw.holds_iff]
  constructor
  · intro hc
    rwa [if_pos hc] at hjump
  · intro hc
    rwa [if_neg hc] at hjump

/-- Settles O30: the sixteen instructions are `Cond.branch` of the sixteen conditions. -/
theorem branchesFollowCondition : Obligations.BranchesFollowCondition := by
  intro s d
  have hbranch (cond : Cond) := branch_branchesOn cond d s
  exact ⟨hbranch .v, hbranch .c, hbranch .z, hbranch .nh, hbranch .s, hbranch .t, hbranch .lt, hbranch .le,
    hbranch .nv, hbranch .nc, hbranch .nz, hbranch .h, hbranch .ns, hbranch .sa, hbranch .ge, hbranch .gt⟩

end Sys2Proof.Machine
end

section
/-!
PROOFS. SET1, CLR1 and NOT1 on writable memory (R180 to R182, R184): the byte written is the byte read with one bit replaced, and
nothing else of memory is touched, said once for `bitModify`.
-/

namespace Sys2Proof.Machine

/-- A byte written to a canonical memory holds the low eight bits of the datum (R50). -/
theorem Memory.getLsbD_read_writeLE_byte {m : List Host.Cell} (adr v : Word) (hm : Memory.wf m = true) {k : Nat} (hk : k < 8) :
    (Memory.read (Memory.writeLE m adr.toNat .byte v) adr.toNat).getLsbD k = v.getLsbD k := by
  have hread : Memory.read (Memory.writeLE m adr.toNat .byte v) adr.toNat = v.extractLsb' 0 8 :=
    Memory.read_writeLE_inside v hm (Width.align_bound .byte adr) (j := 0) (by decide)
  simp [hread, hk]

/-- The read and the write both answer, and the bits of the byte written are those of `withBit` (R184). -/
theorem modifiesBit_of_bitModify {i : Instr} {s : State} {f : Bool → Bool} {bit3 : BitVec 3} {d : BitVec 16} {reg1 : Reg}
    (h : exec i s = bitModify f bit3 d reg1 s) : ModifiesBit i s (s.eaBased reg1 d) bit3 f := by
  rintro ⟨hp, hw⟩ hm
  have hload := State.load_memory (w := .byte) (adr := s.eaBased reg1 d) hp fun j hj => readable_of_writable (hw j hj)
  have hstore (v : Word) := State.store_memory (w := .byte) (adr := s.eaBased reg1 d) (v := v) hp hw
  have hrun := h.trans (bitModify_of_accesses hload (hstore _))
  rw [Width.align_byte, Memory.getLsbD_readLE_byte _ _ bit3.isLt] at hrun
  refine ⟨_, hrun, fun k hk => ?bits, Psw.z_setZ _ s.psw, Psw.cy_setZ _ s.psw, Psw.ov_setZ _ s.psw, Psw.s_setZ _ s.psw,
    statusKept_setZ _ s.psw, fun k hk => State.store_memKeptOutside (hstore _) k hk, fun _ _ => rfl,
    ⟨rfl, rfl, rfl, rfl, rfl, rfl⟩, ⟨rfl, rfl, rfl⟩, ⟨rfl, rfl⟩, rfl⟩
  case bits =>
    refine (Memory.getLsbD_read_writeLE_byte _ _ hm hk).trans ?_
    rw [getLsbD_withBit _ _ (by omega), Memory.getLsbD_readLE_byte _ _ hk]
    split
    · next hkb => rw [hkb]
    · rfl

/-- Settles O38: the three bit instructions are `bitModify` of their own function. -/
theorem bitInstructionsModifyMemory : Obligations.BitInstructionsModifyMemory := fun _ _ _ _ =>
  ⟨modifiesBit_of_bitModify rfl, modifiesBit_of_bitModify rfl, modifiesBit_of_bitModify rfl⟩

end Sys2Proof.Machine
end

section
/-!
PROOFS. The special instructions: RETI after an exception entry, DI and EI, NOP and HALT. An exception entry saves in the EI bank and
sets EP, and with EP = 1 a return takes the EI bank whatever NP is (R230): so RETI finds what the entry saved.
-/

namespace Sys2Proof.Machine

/-! ### RETI after an exception (R199, R224, R225, R247) -/

section Return
variable {e : Entry} (s : State) (hbank : e.bank = .ei) (hex : e.exception = true)
include hbank hex

theorem State.leave_enter_psw : (s.enter e).leave.psw = s.psw := by
  simp [State.leave_psw, hbank, hex]

theorem State.leave_enter_pc : (s.enter e).leave.pc = e.restore &&& 0xFFFFFE#24 := by
  simp [State.leave_pc, hbank, hex]

theorem reti_resumes_after_enter (hrestore : e.restore = s.pc + 4#24) :
    ∃ u, exec .reti (s.enter e) = .next u ∧ u.psw = s.psw ∧ PastPc 4 s u ∧ RegsKept [] s u ∧ MemKept s u ∧ ModeKept s u := by
  refine ⟨(s.enter e).leave, rfl, State.leave_enter_psw s hbank hex, ?past, ?regs, ?mem, ?mode⟩
  case past => rw [PastPc, State.leave_enter_pc s hbank hex, hrestore]
  case regs => exact fun r _ => State.leave_reg (s.enter e) r
  case mem => exact fun a => by rw [State.leave_mem, State.enter_mem]
  case mode => exact ⟨State.leave_halted _, State.leave_inputs _, State.leave_product _⟩

end Return

/-- Settles O47: TRAP and the illegal op code enter as exceptions through the EI bank, with the address past them. -/
theorem retiUndoesException : Obligations.RetiUndoesException := by
  intro i s t hi h
  obtain ⟨vector, rfl⟩ | ⟨a, b, c, sub, d, rfl⟩ := hi
  · cases h
    exact reti_resumes_after_enter (e := trapEntry vector s) s rfl rfl rfl
  · cases h
    exact reti_resumes_after_enter (e := ilgopEntry s) s rfl rfl rfl

/-! ### DI and EI (R196, R197) -/

/-- ID is `b`, and every other flag keeps its value. -/
def IdWritten (b : Bool) (p q : Psw) : Prop :=
  Psw.id q = b ∧ Psw.ep q = Psw.ep p ∧ Psw.np q = Psw.np p ∧ ConditionsKept p q

theorem idWritten_setId (b : Bool) (p : Psw) : IdWritten b p (Psw.setId b p) := by
  simp [IdWritten, ConditionsKept]

theorem setsFlagsOnly_of_setId {i : Instr} {s : State} {b : Bool} {n : Nat}
    (h : exec i s = .next ((s.setPsw (Psw.setId b s.psw)).advance n)) : SetsFlagsOnly i s (IdWritten b) n := by
  obtain ⟨hframe, hpsw⟩ :=
    frameBut_of_flags (s := s) (t := (s.setPsw (Psw.setId b s.psw)).advance n) (p := Psw.setId b s.psw) rfl
  exact ⟨_, h, hpsw ▸ idWritten_setId b s.psw, hframe, rfl⟩

/-- Settles O48: both write ID into the PSW, 1 and 0, and move past themselves. -/
theorem diAndEiWriteId : Obligations.DiAndEiWriteId := fun _ =>
  ⟨setsFlagsOnly_of_setId (b := true) rfl, setsFlagsOnly_of_setId (b := false) rfl⟩

/-! ### NOP and HALT (R195, R198) -/

theorem exec_nop (s : State) : exec .nop s = .next (s.advance 2) := rfl

theorem exec_halt (s : State) : exec .halt s = .next ((s.setHalted true).advance 4) := rfl

/-- Settles O49: the two next states are `State.advance` of the state and of the halted state, written out. -/
theorem nopAdvancesHaltHalts : Obligations.NopAdvancesHaltHalts := fun s => ⟨exec_nop s, exec_halt s⟩

end Sys2Proof.Machine
end

section
/-!
PROOFS. Exceptions, interrupts and the return. Every entry is `State.enter`, so its flags and its frame are said once for any `Entry`;
which entry a step takes is read off the cases of the boundary.
-/

namespace Sys2Proof.Machine

/-! ### The return (R194, R230) -/

theorem exec_reti (s : State) : exec .reti s = .next s.leave := rfl

theorem State.leave_of_fe {s : State} (hep : Psw.ep s.psw = false) (hnp : Psw.np s.psw = true) :
    s.leave = { s with psw := s.fepsw, pc := s.fepc &&& 0xFFFFFE#24 } := by
  have hbank : returnBank s.psw = .fe := by simp [returnBank, hep, hnp]
  rw [State.leave, hbank]
  rfl

theorem State.leave_of_ei {s : State} (h : Psw.ep s.psw = true ∨ Psw.np s.psw = false) :
    s.leave = { s with psw := s.eipsw, pc := s.eipc &&& 0xFFFFFE#24 } := by
  have hbank : returnBank s.psw = .ei := by
    obtain hep | hnp := h
    · simp [returnBank, hep]
    · simp [returnBank, hnp]
  rw [State.leave, hbank]
  rfl

/-- Settles O46: a return is `State.leave`, and the condition on EP and NP is the one that picks its bank. -/
theorem retiRestores : Obligations.RetiRestores := fun s =>
  ⟨fun hep hnp => (exec_reti s).trans (congrArg _ (State.leave_of_fe hep hnp)),
    fun h => (exec_reti s).trans (congrArg _ (State.leave_of_ei h))⟩

/-! ### The flags of an entry (R222 to R225) -/

/-- ID, EP and NP, which are all that `State.enter_psw` writes, are none of the condition flags. -/
@[simp] theorem conditionsKept_entryFlags (np ep id : Bool) (p : Psw) :
    ConditionsKept p (Psw.setNp np (Psw.setEp ep (Psw.setId id p))) := by
  simp [ConditionsKept]

/-! ### TRAP (R193, R224) -/

/-- What an instruction that enters as an exception through the EI bank does, its restore PC the next instruction. -/
theorem takesException_of_enter {i : Instr} {s : State} {e : Entry} (h : exec i s = .next (s.enter e)) (hbank : e.bank = .ei)
    (hex : e.exception = true) (hrestore : e.restore = s.pc + 4#24) :
    TakesException i s e.code (e.handler &&& 0xFFFFFE#24) := by
  refine ⟨_, h, ?_⟩
  simp [hbank, hex, hrestore, RegsKept, MemKept, ModeKept, BookKept]

theorem exec_trap (vector : BitVec 5) (s : State) : exec (.trap vector) s = .next (s.enter (trapEntry vector s)) := rfl

/-- The exception code of TRAP is 0040h and the vector, without a carry out of the half-word (R210). -/
theorem trapEntry_code (vector : BitVec 5) (s : State) :
    (trapEntry vector s).code = BitVec.ofNat 16 (64 + vector.toNat) := by
  simp [trapEntry, BitVec.ofNat_add]

/-- Both handlers of TRAP are even, and the vectors split at 0Fh and 10h (R210). -/
theorem trapEntry_handler (vector : BitVec 5) (s : State) :
    (trapEntry vector s).handler &&& 0xFFFFFE#24 = if vector.toNat ≤ 15 then 0x000040#24 else 0x000050#24 := by
  simp only [trapEntry, Nat.lt_succ_iff]
  split <;> rfl

/-- Settles O44: TRAP enters through the EI bank as an exception, and with EP = 1 a return takes that bank. -/
theorem trapTakesException : Obligations.TrapTakesException := by
  refine ⟨fun s vector => ?enters, fun s hep => (retiRestores s).2 (.inl hep)⟩
  rw [← trapEntry_code vector s, ← trapEntry_handler vector s]
  exact takesException_of_enter (exec_trap vector s) rfl rfl rfl

/-! ### What the boundary's input leaves (D7) -/

@[simp] theorem State.afterBus_gpr (s : State) : s.afterBus.gpr = s.gpr := by rw [State.afterBus_eq]
@[simp] theorem State.afterBus_eipc (s : State) : s.afterBus.eipc = s.eipc := by rw [State.afterBus_eq]
@[simp] theorem State.afterBus_eipsw (s : State) : s.afterBus.eipsw = s.eipsw := by rw [State.afterBus_eq]
@[simp] theorem State.afterBus_fepc (s : State) : s.afterBus.fepc = s.fepc := by rw [State.afterBus_eq]
@[simp] theorem State.afterBus_fepsw (s : State) : s.afterBus.fepsw = s.fepsw := by rw [State.afterBus_eq]
@[simp] theorem State.afterBus_fecc (s : State) : s.afterBus.fecc = s.fecc := by rw [State.afterBus_eq]
@[simp] theorem State.afterBus_eicc (s : State) : s.afterBus.eicc = s.eicc := by rw [State.afterBus_eq]
@[simp] theorem State.afterBus_freeCount (s : State) : s.afterBus.freeCount = s.freeCount := by rw [State.afterBus_eq]

/-! ### Interrupt entries and the wait (R217, R218, R222, R223, R240) -/

theorem step_of_nmi {s : State} (hreset : s.nextInput.reset = false) (hnmi : s.nextInput.nmiReq = true)
    (hnp : Psw.np s.psw = false) : step s = .next s.afterBus.takeNmi := by
  have haccepted : nmiAccepted s.nextInput s.psw = true := by simp [nmiAccepted, hnmi, hnp]
  obtain ⟨hr, -⟩ | ⟨-, -, -, hb⟩ | ⟨req, -, hn, -⟩ | ⟨-, hn, -⟩ := State.boundary_cases s
  · simp [hreset] at hr
  · simp [step, hb, State.afterBus]
  · simp [haccepted] at hn
  · simp [haccepted] at hn

theorem step_of_int {s : State} {req : IntRequest} (hreset : s.nextInput.reset = false) (hnmi : s.nextInput.nmiReq = false)
    (hint : s.nextInput.intReq = some req) (hnp : Psw.np s.psw = false) (hid : Psw.id s.psw = false) :
    step s = .next (s.afterBus.takeInt req) := by
  have haccepted : intAccepted s.nextInput s.psw = some req := by simp [intAccepted, hint, hnp, hid]
  obtain ⟨hr, -⟩ | ⟨-, hn, -⟩ | ⟨req', -, -, hi, -, -, hb⟩ | ⟨-, -, hi, -⟩ := State.boundary_cases s
  · simp [hreset] at hr
  · simp [hnmi] at hn
  · obtain rfl : req = req' := Option.some.inj (hint.symm.trans hi)
    simp [step, hb, State.afterBus]
  · simp [haccepted] at hi

theorem step_of_waiting {s : State} (hhalted : s.halted = true) (hnothing : NothingAccepted s) :
    step s = .next s.afterBus := by
  simp [step, State.boundary_of_nothingAccepted hnothing, hhalted]

/-- Settles O50: the step is `State.takeNmi` after the boundary's input, an entry through the FE bank as an interrupt. (The name
`nmiEntry` is the model's.) -/
theorem nmiEntry_taken : Obligations.NmiEntry := by
  intro s hreset hnmi hnp
  refine ⟨_, step_of_nmi hreset hnmi hnp, ?_⟩
  simp [State.takeNmi, nmiEntry]

/-- Settles O51: the step is `State.takeInt` after the boundary's input, an entry through the EI bank as an interrupt, which keeps
NP = 0. -/
theorem maskableEntry : Obligations.MaskableEntry := by
  intro s req hreset hnmi hint hnp hid
  refine ⟨_, step_of_int hreset hnmi hint hnp hid, ?_⟩
  simp [State.takeInt, intEntry, hnp]

/-- Settles O52: where nothing is accepted a halted core's boundary waits, on the state after its input. -/
theorem haltWaits : Obligations.HaltWaits := fun _ => step_of_waiting

end Sys2Proof.Machine
end
